-- ==== Sys2Proof/Word.lean ====
section
/-! DEFINITION. The two word types of the part: the byte of its links, and the 48-bit time of its time base. -/

namespace Sys2Proof

/-- A byte of the station link or of the pendant line; also a generation and a tag, which wrap from 255 to 0 (R1, R126, R132). -/
abbrev Byte := BitVec 8

/-- An internal or reported time in µs: the count wraps from 2^48 − 1 to 0 and differences are taken modulo 2^48 (R140, R141). -/
abbrev Time := BitVec 48

end Sys2Proof
end

