-- ==== Sys2Proof/Names.lean ====
section
/-! DEFINITION. The manual's fixed sets of names: states, kinds, owners, outcomes, origins, answers, notice kinds and the like. -/

namespace Sys2Proof

/-- The stages of a pursuit, which are the six active states (00_scope.md Terms, R46). -/
inductive Stage where
  | slewing | centring | ranging | locked | coasting | searching
  deriving DecidableEq, Repr

/-- The state of a live record (R5, 1.4). VACANT is the slot without a record. -/
inductive RecState where
  | dormant | queued | suspended
  | active (stage : Stage)
  deriving DecidableEq, Repr

/-- The kind of a record (1.3). -/
inductive Kind where
  | home | roving | nest
  deriving DecidableEq, Repr

/-- The owner of a record, which is the client allowed to change it (R6). -/
inductive Owner where
  | station | pendant
  deriving DecidableEq, Repr

/-- How a record last became DORMANT (R5). -/
inductive EndOutcome where
  | none | released | done | lost | fault | preempted | dropped | parked
  deriving DecidableEq, Repr

/-- The source of a beam request (R79). -/
inductive Origin where
  | station | pendant | revisit | internal
  deriving DecidableEq, Repr

/-- The groups of a record that READ returns (R12). -/
inductive Group where
  | identity | fix | motion | reference | parameters | revisit | statistics | status
  deriving DecidableEq, Repr

/-- The drift state of the Reference group (1.3, R118). -/
inductive DriftState where
  | none | within | outside
  deriving DecidableEq, Repr

/-- The eight record notice kinds, numbered 0 to 7 in this order (R143). -/
inductive RecordNotice where
  | fix | lock | break | lost | drift | ambig | drop | miss
  deriving DecidableEq, Repr

/-- The seven device notice kinds, numbered 0 to 6 in this order (R145). -/
inductive DeviceNotice where
  | falseReturn | drive | range | pendant | link | sweep | home
  deriving DecidableEq, Repr

/-- The answer codes of the station link (9.5), and NOTLOCKED, which the pendant alone meets (R203). -/
inductive Answer where
  | ok | already | badFrame | unknown | range | stale | vacant | owner | busy | full | kind | overlap | parked | noAim | home
  | notLocked
  deriving DecidableEq, Repr

/-- The run mode (R78). -/
inductive RunMode where
  | parked | running
  deriving DecidableEq, Repr

/-- The status of a revisit list entry (R103, R104). -/
inductive RevisitStatus where
  | scheduled | due | offered
  deriving DecidableEq, Repr

/-- The direction of a SCAN or a sweep (R161, R164). -/
inductive WalkDirection where
  | up | down
  deriving DecidableEq, Repr

/-- The five actions of a sweep (R163). -/
inductive SweepAction where
  | release | retire | revisitOff | holdOn | holdOff
  deriving DecidableEq, Repr

/-- How the last sweep ended (R163). -/
inductive EndCause where
  | count | tableEnd | stopped | abandoned
  deriving DecidableEq, Repr

/-- The result a SCAN carries in its answer (R161). -/
inductive ScanResult where
  | found | none | tableEnd
  deriving DecidableEq, Repr

/-- Which group NEXT-NOTICE hands out (R150). -/
inductive NoticeSource where
  | device | record | none
  deriving DecidableEq, Repr

/-- Which allocation windows a WINDOWS request selects (R19). -/
inductive WindowSelector where
  | station | pendant | both
  deriving DecidableEq, Repr

end Sys2Proof
end

