-- ==== Sys2Proof/Syntax.lean ====
section
/-! DEFINITION. The commands of the part: one constructor for each row of spec/opcode_table.json, with the row's operands. Station commands carry the
values of their payload at the widths of R183 and R190, so that a value out of range can be said. -/

namespace Sys2Proof

/-- A detector frame (R121). The spot offset and the encoder angles are in µrad. parityAgrees says whether the detector's check agrees with the other
fields: the manual gives the bit's meaning and not its rule (log 10). -/
structure Frame where
  number : Byte
  encoderAzimuth : Int
  encoderElevation : Int
  spotX : Int
  spotY : Int
  intensity : Nat
  valid : Bool
  parityAgrees : Bool
  deriving DecidableEq, Repr

/-- The reason of a drive FAULT (R130). -/
inductive DriveFaultReason where
  | limit | stall
  deriving DecidableEq, Repr

/-- The reason of a FAIL that the distance meter sends (R133). -/
inductive RangeFailReason where
  | noReturn | weak | outOfRange
  deriving DecidableEq, Repr

/-- A condition as its 6 bytes carry it (R189): two bytes of states, then kinds, owners, qualifiers and the outcome code. -/
structure ConditionBytes where
  states : BitVec 16
  kinds : Byte
  owners : Byte
  qualifiers : Byte
  outcome : Byte
  deriving DecidableEq, Repr

/-- The pendant frame errors of R193. A checkMismatch carries the bytes from the length byte to the last payload byte, and the check byte received. -/
inductive PendantError where
  | badStopBit
  | lineBreak
  | oversizeLength (length : Byte)
  | checkMismatch (body : List Byte) (check : Byte)
  | unknownKind (kind : Byte) (payload : List Byte)
  deriving DecidableEq, Repr

/-- The commands (spec/opcode_table.json). -/
inductive Instr where
  -- the reset pin
  | resetnLow
  | resetnRise
  -- station transactions that reach no block
  | emptyTransaction (clocks : Nat)
  | readTransaction (rest : List Byte)
  | badframe (bytes : List Byte)
  | unknown (code : Byte) (payload : List Byte)
  -- target table
  | create (kind cls : Byte)
  | retire (slot gen : Byte)
  | read (slot gen group : Byte)
  | setParameters (slot gen selector : Byte) (window coastTime fixInterval : BitVec 16) (searchRings : Byte) (searchLimit : BitVec 16)
  | setReference (slot gen selector : Byte) (azimuth elevation range : BitVec 32) (angleTolerance : BitVec 16) (rangeTolerance : BitVec 32)
  | setReferenceRemoval (slot gen selector : Byte)
  | setHold (slot gen selector value : Byte)
  | setAutoResume (slot gen value : Byte)
  | changeKind (slot gen expected wanted : Byte)
  | take (slot gen : Byte)
  | give (slot gen : Byte)
  | windows (selector stationBase stationLength pendantBase pendantLength : Byte)
  -- class table
  | classEntryRead (cls : Byte)
  | classEntryWrite (cls : Byte) (sphereOffset captureRadius centreRadius minIntensity rangeAgreement ringStep : BitVec 16)
  | changeClass (slot gen cls : Byte)
  -- beam arbiter
  | pursue (slot gen flags priority : Byte) (azimuth elevation : BitVec 32)
  | release (slot gen : Byte)
  | priorityRead (origin : Byte)
  | priorityWrite (origin value : Byte)
  | park
  | unpark
  | beamStatus
  -- revisit scheduler
  | setRevisit (slot gen : Byte) (period : BitVec 16)
  | revisitEntry (position : Byte)
  -- time base and ports
  | syncRead
  | syncWrite (value : BitVec 64)
  | portStatus
  -- notice unit
  | noticeControlRead
  | noticeControlWrite (recordMask deviceMask master : Byte)
  | nextNotice
  | deviceStatus
  -- sweep unit
  | scan (start direction count : Byte) (condition : ConditionBytes)
  | sweep (start direction count : Byte) (condition : ConditionBytes) (action : Byte)
  | sweepStatus
  | sweepStop
  -- every block
  | reset
  -- the part's own events and the instruments
  | sweepStep
  | detectorFrame (frame : Frame)
  | arrived (tag : Byte)
  | driveFault (tag : Byte) (reason : DriveFaultReason)
  | reading (tag : Byte) (distance : Nat)
  | fail (tag : Byte) (reason : RangeFailReason)
  | rangeTimeout
  | coastDeadlineExpiry
  | searchDeadlineExpiry
  | fixWaitExpiry
  | dueTimeExpiry
  -- pendant link
  | pendantFrameError (error : PendantError)
  | poll (payload : List Byte)
  | claimNew (payload : List Byte)
  | find (payload : List Byte)
  | letGo (payload : List Byte)
  | holdOn (payload : List Byte)
  | holdOff (payload : List Byte)
  | mark (payload : List Byte)
  | drop (payload : List Byte)
  | pendantSilenceExpiry
  | statusFrameSent
  | lineReturnToIdle
  deriving DecidableEq, Repr

end Sys2Proof
end

