-- ==== Sys2Proof/Decode.lean ====
section
/-! DEFINITION. What a word of the table spells (none: no row gives bits), and beside it the framing of the two client links: which command the bytes of
a station transaction are (R176 to R179, R184, R190), which bytes a station command is, and the pendant's receiver and frames (R192, R203). -/

namespace Sys2Proof

/-- No row of spec/opcode_table.json gives bits, so no word spells a command. -/
def decodeTableWord (_nbits _w : Nat) : Option Instr := none

/-! ### Bytes of values: least significant byte first (R183, R203) -/

/-- Byte n of a word, byte 0 the least significant. -/
def byteOf {w : Nat} (n : Nat) (v : BitVec w) : Byte := v.extractLsb' (8 * n) 8

/-- A 2-byte value, least significant byte first. -/
def bytes2 (v : BitVec 16) : List Byte := [byteOf 0 v, byteOf 1 v]

/-- A 4-byte value, least significant byte first. -/
def bytes4 (v : BitVec 32) : List Byte := [byteOf 0 v, byteOf 1 v, byteOf 2 v, byteOf 3 v]

/-- A 6-byte value, least significant byte first. -/
def bytes6 (v : BitVec 48) : List Byte := [byteOf 0 v, byteOf 1 v, byteOf 2 v, byteOf 3 v, byteOf 4 v, byteOf 5 v]

/-- An 8-byte value, least significant byte first. -/
def bytes8 (v : BitVec 64) : List Byte :=
  [byteOf 0 v, byteOf 1 v, byteOf 2 v, byteOf 3 v, byteOf 4 v, byteOf 5 v, byteOf 6 v, byteOf 7 v]

/-- The value two bytes carry. -/
def word2 (b0 b1 : Byte) : BitVec 16 := b1 ++ b0

/-- The value four bytes carry. -/
def word4 (b0 b1 b2 b3 : Byte) : BitVec 32 := b3 ++ (b2 ++ (b1 ++ b0))

/-- The value eight bytes carry. -/
def word8 (b0 b1 b2 b3 b4 b5 b6 b7 : Byte) : BitVec 64 := b7 ++ (b6 ++ (b5 ++ (b4 ++ (b3 ++ (b2 ++ (b1 ++ b0))))))

/-! ### The CRC-8 of command and response frames (R179) -/

/-- One shift of the register toward its most significant bit, with 0x07 where a 1 is shifted out (R179). -/
def crcShift (r : Byte) : Byte := if r.msb then (r <<< 1) ^^^ 0x07#8 else r <<< 1

/-- One byte taken into the register (R179). -/
def crcByte (r b : Byte) : Byte :=
  crcShift (crcShift (crcShift (crcShift (crcShift (crcShift (crcShift (crcShift (r ^^^ b))))))))

/-- The CRC-8 over bytes in the order sent (R179). -/
def crc8 (bytes : List Byte) : Byte := bytes.foldl crcByte 0#8

/-- A frame of the station link: first byte, length byte, payload and CRC (9.5). -/
def linkFrame (first : Byte) (payload : List Byte) : List Byte :=
  let body := first :: BitVec.ofNat 8 payload.length :: payload
  body ++ [crc8 body]

/-! ### Bits on SDI (R176) -/

/-- The complete bytes of the bits sampled on SDI, most significant bit first; a trailing byte of fewer than eight clocks is dropped (R176). -/
def sdiBytes : List Bool → List Byte
  | b7 :: b6 :: b5 :: b4 :: b3 :: b2 :: b1 :: b0 :: rest =>
    ((((((((BitVec.ofBool b7) ++ (BitVec.ofBool b6)) ++ (BitVec.ofBool b5)) ++ (BitVec.ofBool b4)) ++ (BitVec.ofBool b3))
      ++ (BitVec.ofBool b2)) ++ (BitVec.ofBool b1)) ++ (BitVec.ofBool b0)) :: sdiBytes rest
  | _ => []

/-! ### Station commands -/

/-- The codes of the command code table (R190). -/
def commandCodes : List Byte :=
  [0x10#8, 0x11#8, 0x12#8, 0x13#8, 0x14#8, 0x15#8, 0x16#8, 0x17#8, 0x20#8, 0x21#8, 0x30#8, 0x31#8, 0x32#8, 0x33#8, 0x34#8, 0x35#8]
    ++ [0x40#8, 0x41#8, 0x50#8, 0x51#8, 0x60#8, 0x61#8, 0x62#8, 0x70#8, 0x71#8, 0x72#8, 0x73#8, 0x7F#8]

/-- The code and the payload of a command that has a code of R190, its values in the order its entry names them (R183, R184, R190). -/
def commandOf : Instr → Option (Byte × List Byte)
  | .create k c => some (0x10#8, [k, c])
  | .retire s g => some (0x11#8, [s, g])
  | .read s g n => some (0x12#8, [s, g, n])
  | .setParameters s g x w c f r l => some (0x13#8, [s, g, x] ++ bytes2 w ++ bytes2 c ++ bytes2 f ++ [r] ++ bytes2 l)
  | .setReference s g x a e r ta tr => some (0x13#8, [s, g, x] ++ bytes4 a ++ bytes4 e ++ bytes4 r ++ bytes2 ta ++ bytes4 tr)
  | .setReferenceRemoval s g x => some (0x13#8, [s, g, x])
  | .setHold s g x v => some (0x13#8, [s, g, x, v])
  | .setAutoResume s g v => some (0x13#8, [s, g, 3#8, v])
  | .changeKind s g x k => some (0x14#8, [s, g, x, k])
  | .take s g => some (0x15#8, [s, g])
  | .give s g => some (0x16#8, [s, g])
  | .windows x sb sl pb pl => some (0x17#8, [x, sb, sl, pb, pl])
  | .classEntryRead c => some (0x20#8, [c])
  | .classEntryWrite c a b d e f g =>
      some (0x20#8, [c] ++ bytes2 a ++ bytes2 b ++ bytes2 d ++ bytes2 e ++ bytes2 f ++ bytes2 g)
  | .changeClass s g c => some (0x21#8, [s, g, c])
  | .pursue s g f p a e => some (0x30#8, [s, g, f, p] ++ bytes4 a ++ bytes4 e)
  | .release s g => some (0x31#8, [s, g])
  | .priorityRead o => some (0x32#8, [o])
  | .priorityWrite o v => some (0x32#8, [o, v])
  | .park => some (0x33#8, [])
  | .unpark => some (0x34#8, [])
  | .beamStatus => some (0x35#8, [])
  | .setRevisit s g p => some (0x40#8, [s, g] ++ bytes2 p)
  | .revisitEntry p => some (0x41#8, [p])
  | .syncRead => some (0x50#8, [])
  | .syncWrite v => some (0x50#8, bytes8 v)
  | .portStatus => some (0x51#8, [])
  | .noticeControlRead => some (0x60#8, [])
  | .noticeControlWrite r d m => some (0x60#8, [r, d, m])
  | .nextNotice => some (0x61#8, [])
  | .deviceStatus => some (0x62#8, [])
  | .scan s d n c => some (0x70#8, [s, d, n] ++ bytes2 c.states ++ [c.kinds, c.owners, c.qualifiers, c.outcome])
  | .sweep s d n c a => some (0x71#8, [s, d, n] ++ bytes2 c.states ++ [c.kinds, c.owners, c.qualifiers, c.outcome, a])
  | .sweepStatus => some (0x72#8, [])
  | .sweepStop => some (0x73#8, [])
  | .reset => some (0x7F#8, [])
  | _ => none

/-- The command of a code with the lengths R190 allows it, in the form the length settles; SET of four bytes by its selector (R184). -/
def parseCommand (code : Byte) (payload : List Byte) : Option Instr :=
  match code.toNat, payload with
  | 0x10, [k, c] => some (.create k c)
  | 0x11, [s, g] => some (.retire s g)
  | 0x12, [s, g, n] => some (.read s g n)
  | 0x13, [s, g, x] => some (.setReferenceRemoval s g x)
  | 0x13, [s, g, x, v] => some (if x = 3#8 then .setAutoResume s g v else .setHold s g x v)
  | 0x13, [s, g, x, w0, w1, c0, c1, f0, f1, r, l0, l1] =>
      some (.setParameters s g x (word2 w0 w1) (word2 c0 c1) (word2 f0 f1) r (word2 l0 l1))
  | 0x13, [s, g, x, a0, a1, a2, a3, e0, e1, e2, e3, r0, r1, r2, r3, t0, t1, u0, u1, u2, u3] =>
      some (.setReference s g x (word4 a0 a1 a2 a3) (word4 e0 e1 e2 e3) (word4 r0 r1 r2 r3) (word2 t0 t1) (word4 u0 u1 u2 u3))
  | 0x14, [s, g, x, k] => some (.changeKind s g x k)
  | 0x15, [s, g] => some (.take s g)
  | 0x16, [s, g] => some (.give s g)
  | 0x17, [x, sb, sl, pb, pl] => some (.windows x sb sl pb pl)
  | 0x20, [c] => some (.classEntryRead c)
  | 0x20, [c, a0, a1, b0, b1, d0, d1, e0, e1, f0, f1, g0, g1] =>
      some (.classEntryWrite c (word2 a0 a1) (word2 b0 b1) (word2 d0 d1) (word2 e0 e1) (word2 f0 f1) (word2 g0 g1))
  | 0x21, [s, g, c] => some (.changeClass s g c)
  | 0x30, [s, g, f, p, a0, a1, a2, a3, e0, e1, e2, e3] => some (.pursue s g f p (word4 a0 a1 a2 a3) (word4 e0 e1 e2 e3))
  | 0x31, [s, g] => some (.release s g)
  | 0x32, [o] => some (.priorityRead o)
  | 0x32, [o, v] => some (.priorityWrite o v)
  | 0x33, [] => some .park
  | 0x34, [] => some .unpark
  | 0x35, [] => some .beamStatus
  | 0x40, [s, g, p0, p1] => some (.setRevisit s g (word2 p0 p1))
  | 0x41, [p] => some (.revisitEntry p)
  | 0x50, [] => some .syncRead
  | 0x50, [v0, v1, v2, v3, v4, v5, v6, v7] => some (.syncWrite (word8 v0 v1 v2 v3 v4 v5 v6 v7))
  | 0x51, [] => some .portStatus
  | 0x60, [] => some .noticeControlRead
  | 0x60, [r, d, m] => some (.noticeControlWrite r d m)
  | 0x61, [] => some .nextNotice
  | 0x62, [] => some .deviceStatus
  | 0x70, [s, d, n, t0, t1, k, o, q, x] => some (.scan s d n ⟨word2 t0 t1, k, o, q, x⟩)
  | 0x71, [s, d, n, t0, t1, k, o, q, x, a] => some (.sweep s d n ⟨word2 t0 t1, k, o, q, x⟩ a)
  | 0x72, [] => some .sweepStatus
  | 0x73, [] => some .sweepStop
  | 0x7F, [] => some .reset
  | _, _ => none

/-- Check 1 of R178, passed: 3 complete bytes at least, the length byte at most 30, and as many bytes as it says plus 3. -/
def lengthSound (bytes : List Byte) : Bool :=
  decide (3 ≤ bytes.length) && decide ((bytes.getD 1 0#8).toNat ≤ 30) && decide (bytes.length = (bytes.getD 1 0#8).toNat + 3)

/-- Check 2 of R178, passed: the last byte is the CRC-8 of the bytes before it. -/
def crcSound (bytes : List Byte) : Bool := decide (bytes.getLastD 0#8 = crc8 bytes.dropLast)

/-- The command a station transaction is, by its complete bytes, judged at the rise of SCS (R176, R177, R178). -/
def transactionOf (bytes : List Byte) : Instr :=
  match bytes with
  | [] => .emptyTransaction 0
  | first :: rest =>
    if first = 0#8 then .readTransaction rest
    else if !lengthSound (first :: rest) then .badframe (first :: rest)
    else if !crcSound (first :: rest) then .badframe (first :: rest)
    else
      let payload := rest.tail.dropLast
      if !commandCodes.contains first then .unknown first payload
      else (parseCommand first payload).getD (.badframe (first :: rest))

/-- The complete bytes of the transaction that is this command; none for a command that is no station transaction. -/
def transactionBytes (i : Instr) : Option (List Byte) :=
  match i with
  | .emptyTransaction _ => some []
  | .readTransaction rest => some (0#8 :: rest)
  | .badframe bytes => some bytes
  | .unknown code payload => some (linkFrame code payload)
  | i => (commandOf i).map fun cp => linkFrame cp.1 cp.2

/-! ### Pendant frames (R192, R203) -/

/-- The check byte: the exclusive OR of the length byte, the kind byte and every payload byte (R192). -/
def pendantCheck (bytes : List Byte) : Byte := bytes.foldl (· ^^^ ·) 0#8

/-- A frame of the pendant line: lead byte, length, kind, payload and check (R203). -/
def pendantFrame (kind : Byte) (payload : List Byte) : List Byte :=
  let body := BitVec.ofNat 8 payload.length :: kind :: payload
  0xA7#8 :: body ++ [pendantCheck body]

/-- The request of a kind, with its payload (R203). -/
def pendantRequest (kind : Byte) (payload : List Byte) : Option Instr :=
  match kind.toNat with
  | 1 => some (.poll payload)
  | 2 => some (.claimNew payload)
  | 3 => some (.find payload)
  | 4 => some (.letGo payload)
  | 5 => some (.holdOn payload)
  | 6 => some (.holdOff payload)
  | 7 => some (.mark payload)
  | 8 => some (.drop payload)
  | _ => none

/-- The kind and the payload of a pendant request (R203). -/
def pendantKindOf : Instr → Option (Byte × List Byte)
  | .poll p => some (1#8, p)
  | .claimNew p => some (2#8, p)
  | .find p => some (3#8, p)
  | .letGo p => some (4#8, p)
  | .holdOn p => some (5#8, p)
  | .holdOff p => some (6#8, p)
  | .mark p => some (7#8, p)
  | .drop p => some (8#8, p)
  | _ => none

/-- The pendant link's receiver (R192): hunting, or assembling a frame with the bytes received after its lead byte, oldest first. -/
inductive Receiver where
  | hunting
  | assembling (bytes : List Byte)
  deriving DecidableEq, Repr

/-- A frame whose check byte has been received is judged: the check, then the kind (R192). -/
def judgePendantFrame (body : List Byte) (check : Byte) : Instr :=
  if pendantCheck body ≠ check then .pendantFrameError (.checkMismatch body check)
  else (pendantRequest (body.getD 1 0#8) (body.drop 2)).getD (.pendantFrameError (.unknownKind (body.getD 1 0#8) (body.drop 2)))

/-- One byte received with a good stop bit: the receiver after it, and the event it ends, if any (R192). -/
def receiveByte (r : Receiver) (b : Byte) : Receiver × Option Instr :=
  match r with
  | .hunting => (if b = 0xA7#8 then .assembling [] else .hunting, none)
  | .assembling [] =>
      if 12 < b.toNat then (.hunting, some (.pendantFrameError (.oversizeLength b))) else (.assembling [b], none)
  | .assembling (len :: rest) =>
      if rest.length = len.toNat + 1 then (.hunting, some (judgePendantFrame (len :: rest) b))
      else (.assembling (len :: rest ++ [b]), none)

/-- The events that a run of bytes on PRXD ends, oldest first, and the receiver after them (R192). -/
def receiveBytes (r : Receiver) : List Byte → Receiver × List Instr
  | [] => (r, [])
  | b :: bs =>
    let step := receiveByte r b
    let more := receiveBytes step.1 bs
    (more.1, step.2.toList ++ more.2)

end Sys2Proof
end

