-- ==== Sys2Proof/Machine/State.lean ====
section
/-! DEFINITION. The state of the part: one structure for each block of 00_scope.md's block overview, with the state that block owns, and the machine after
reset. Fault and Refusal are here too. -/

namespace Sys2Proof.Machine

/-- The manual names no event that stops the part: a request that cannot be taken is answered, a completion that is late is discarded. So no meaning
faults, and Fault has no constructor: nothing raises one. Safe: no claim can rest on a stop that the part does not make. -/
inductive Fault where
  deriving DecidableEq, Repr

/-- Why a command has no meaning here. -/
inductive Refusal where
  /-- Raised by exec alone, in the arm of a command that has no meaning yet; no arm raises it now. Safe: the machine stops where the part goes on. -/
  | notModelled (mnemonic : String)
  deriving DecidableEq, Repr

/-- A record's name: slot and generation (R1, R2). -/
structure Handle where
  slot : Fin 48
  generation : Byte
  deriving DecidableEq, Repr

/-- A direction in µrad (R32). -/
structure Direction where
  azimuth : Int
  elevation : Int
  deriving DecidableEq, Repr

/-! ### Target table (chapter 1) -/

/-- The fix of a record (1.3, R4): what READ shows, and the internal time of composition, which it does not. -/
structure Fix where
  direction : Direction
  range : Nat
  stamp : Time
  quality : Nat
  near : Option (Fin 48)
  mark : Option Byte
  composed : Time
  deriving DecidableEq, Repr

/-- The motion estimate: rates in µrad/s and µm/s (1.3, R4). -/
structure Motion where
  azimuthRate : Int
  elevationRate : Int
  rangeRate : Int
  deriving DecidableEq, Repr

/-- The surveyed direction and range of a fixed record (1.3). -/
structure Reference where
  direction : Direction
  range : Nat
  deriving DecidableEq, Repr

/-- The last deviation of the Reference group (1.3, R118). -/
structure Deviation where
  azimuth : Int
  elevation : Int
  range : Int
  deriving DecidableEq, Repr

/-- The Parameters group (1.3). -/
structure Parameters where
  window : Nat
  coastTime : Nat
  fixInterval : Nat
  searchRings : Nat
  searchLimit : Nat
  deriving DecidableEq, Repr

/-- A live record (1.3). Its slot and generation are its place in the table (R1), and its due time is its revisit entry's (R103). -/
structure Record where
  kind : Kind
  cls : Fin 8
  owner : Owner
  state : RecState
  outcome : EndOutcome
  autoResume : Bool
  hold : Bool
  fix : Option Fix
  sequence : BitVec 16
  fixPending : Bool
  fixOverrun : Bool
  motion : Option Motion
  reference : Option Reference
  angleTolerance : Nat
  rangeTolerance : Nat
  drift : DriftState
  lastDeviation : Option Deviation
  params : Parameters
  period : Nat
  missCount : Nat
  breaks : Nat
  searches : Nat
  ambiguities : Nat
  lockLatch : Bool
  notices : BitVec 8
  deriving DecidableEq, Repr

/-- A slot: its generation, and its record unless it is VACANT (R1). -/
structure Slot where
  generation : Byte
  record : Option Record
  deriving DecidableEq, Repr

/-- An allocation window: slots base to base + length − 1 (R8). -/
structure AllocWindow where
  base : Nat
  length : Nat
  deriving DecidableEq, Repr

/-- The state of the target table (R1, R8). -/
structure Table where
  slots : Vector Slot 48
  stationWindow : AllocWindow
  pendantWindow : AllocWindow
  deriving DecidableEq, Repr

/-! ### Class table (chapter 2) -/

/-- The six figures of a class entry (R27). -/
structure ClassEntry where
  sphereOffset : Nat
  captureRadius : Nat
  centreRadius : Nat
  minIntensity : Nat
  rangeAgreement : Nat
  ringStep : Nat
  deriving DecidableEq, Repr

/-! ### Pursuit unit (chapter 3) -/

/-- A search under way: the frozen centre, the shape, the next waypoint and the deadline of R46, which R68 sets together and R71 clears together. -/
structure Search where
  centre : Direction
  rings : Nat
  ringStep : Nat
  ring : Nat
  index : Nat
  deadline : Time
  deriving DecidableEq, Repr

/-- The pursuit context (R46). -/
structure Context where
  target : Handle
  origin : Origin
  aimDirection : Direction
  stage : Stage
  moveInFlight : Bool
  rangeInFlight : Bool
  lastCaptured : Option Direction
  latestIntensity : Option Nat
  centredCount : Nat
  readings : Nat
  heldReading : Option Nat
  fixWait : Option Time
  coastDeadline : Option Time
  search : Option Search
  nearSlot : Option (Fin 48)
  pendingMark : Option Byte
  deriving DecidableEq, Repr

/-! ### Beam arbiter (chapter 4) -/

/-- A request for the beam: what the grant (R81) and a stack entry (R80) hold, and what a queue entry holds beside its arrival number (R79). -/
structure Request where
  handle : Handle
  origin : Origin
  priority : Nat
  aim : Option Direction
  deriving DecidableEq, Repr

/-- An entry of the request queue (R79). -/
structure QueueEntry where
  request : Request
  arrival : Nat
  deriving DecidableEq, Repr

/-- The priority table (R82). INTERNAL is fixed at 7 and is not stored. -/
structure PriorityTable where
  station : Nat
  pendant : Nat
  revisit : Nat
  deriving DecidableEq, Repr

/-- What the beam arbiter holds (R78); the head of the stack is its top. -/
structure Arbiter where
  queue : List QueueEntry
  stack : List Request
  grant : Option Request
  priorities : PriorityTable
  runMode : RunMode
  arrivalCounter : Nat
  deriving DecidableEq, Repr

/-! ### Revisit scheduler (chapter 5) -/

/-- An entry of the revisit list (R103). -/
structure RevisitEntry where
  handle : Handle
  due : Time
  status : RevisitStatus
  deriving DecidableEq, Repr

/-- What the revisit scheduler holds (R103, R116). passWanted is the model's own: a trigger of R109 seen in the event being taken (log 5). -/
structure Scheduler where
  entries : List RevisitEntry
  frozen : Bool
  passWanted : Bool
  deriving DecidableEq, Repr

/-! ### Instrument ports and time base (chapter 6) -/

/-- A request on the drive link (R126, R127). -/
inductive DriveRequest where
  | move (direction : Direction) (tag : Byte)
  | follow (direction : Direction)
  | halt
  deriving DecidableEq, Repr

/-- The outstanding range request (R132). -/
structure RangeRequest where
  tag : Byte
  deadline : Time
  deriving DecidableEq, Repr

/-- What the instrument ports hold (R136), and what the latest command sent on DRQ and RRQ, oldest first (log 11). -/
structure Ports where
  expectedFrame : Option Byte
  nextMoveTag : Byte
  latestMoveTag : Option Byte
  nextRangeTag : Byte
  outstanding : Option RangeRequest
  driveOut : List DriveRequest
  rangeOut : List Byte
  deriving DecidableEq, Repr

/-- What the time base holds (R140, R141). -/
structure TimeBase where
  count : Time
  offset : Time
  deriving DecidableEq, Repr

/-! ### Notice unit (chapter 7) -/

/-- What the notice unit holds beside the records' sets: the device set, the masks, the master enable, the four counters and the NOTICE line
(R145, R147, R149, R152). Bit n of a set is the kind numbered n. -/
structure NoticeUnit where
  device : BitVec 7
  recordMask : BitVec 8
  deviceMask : BitVec 7
  master : Bool
  falseReturns : Nat
  rangeFailures : Nat
  frameRejects : Nat
  pendantErrors : Nat
  line : Bool
  deriving DecidableEq, Repr

/-! ### Sweep unit (chapter 8) -/

/-- A condition (R158). Bit n of a set is the value with code n in 9.5; VACANT is bit 0 of the state set. -/
structure Condition where
  states : BitVec 10
  kinds : BitVec 3
  owners : BitVec 2
  pendingOnly : Bool
  outcome : Option EndOutcome
  driftOut : Bool
  deriving DecidableEq, Repr

/-- A sweep in flight (R163). -/
structure Sweep where
  condition : Condition
  action : SweepAction
  direction : WalkDirection
  next : Fin 48
  remaining : Nat
  acted : Nat
  skipped : Nat
  deriving DecidableEq, Repr

/-- The last result (R163). -/
structure SweepResult where
  cause : EndCause
  action : SweepAction
  acted : Nat
  skipped : Nat
  deriving DecidableEq, Repr

/-- What the sweep unit holds (R163). -/
structure SweepUnit where
  inFlight : Option Sweep
  lastResult : Option SweepResult
  deriving DecidableEq, Repr

/-! ### Station link (chapter 9) -/

/-- A response: its status and its payload bytes (R181). -/
structure Response where
  status : Answer
  payload : List Byte
  deriving DecidableEq, Repr

/-- What the station link holds (R175): the receive frame buffer and whether the transaction carried more, the pending response and READY; and what SDO
shifts out in the latest transaction (R176, log 11): the bits of the clocks that the command carries, in order, and the byte that stands next, whose most
significant bits any clocks of a trailing partial byte shift out (log 16). -/
structure StationLink where
  received : List Byte
  more : Bool
  response : Option Response
  ready : Bool
  sdo : List Bool
  sdoNext : Byte
  deriving DecidableEq, Repr

/-! ### Pendant link (chapter 10) -/

/-- The slot a status frame names, and the slot's state, none for VACANT (R202). -/
structure NamedSlot where
  handle : Handle
  state : Option RecState
  deriving DecidableEq, Repr

/-- A status frame (R202); kind is its kind byte (R203). -/
structure StatusFrame where
  kind : Byte
  answer : Answer
  offset : Option Byte
  named : Option NamedSlot
  intensity : Option Nat
  fixRange : Option Nat
  mark : Option Byte
  deriving DecidableEq, Repr

/-- What the pendant link holds (R204). reported has a place for slot 0, which is never written; inBreak says that a break has been counted and the line has
not returned to idle since (R193). -/
structure PendantLink where
  receiver : Receiver
  present : Bool
  silenceDeadline : Option Time
  markCounter : Byte
  reported : Vector (Option Byte) 48
  sending : Option StatusFrame
  waiting : List StatusFrame
  inBreak : Bool
  deriving DecidableEq, Repr

/-- The state of the part, block by block, and the queue of commands. -/
structure State where
  resetnLow : Bool
  table : Table
  classes : Vector ClassEntry 8
  pursuit : Option Context
  arbiter : Arbiter
  scheduler : Scheduler
  ports : Ports
  time : TimeBase
  notices : NoticeUnit
  sweep : SweepUnit
  link : StationLink
  pendant : PendantLink
  pending : List Instr
  deriving DecidableEq, Repr

/-- The HOME record at power-on (R24). -/
def Record.powerOnHome : Record :=
  { kind := .home, cls := 0, owner := .station, state := .dormant, outcome := .none, autoResume := false, hold := false
    fix := none, sequence := 0, fixPending := false, fixOverrun := false, motion := none, reference := none
    angleTolerance := 100, rangeTolerance := 200, drift := .none, lastDeviation := none
    params := { window := 0, coastTime := 300, fixInterval := 0, searchRings := 6, searchLimit := 15000 }
    period := 0, missCount := 0, breaks := 0, searches := 0, ambiguities := 0, lockLatch := false, notices := 0 }

/-- A class entry at power-on (R27). -/
def ClassEntry.powerOn : ClassEntry :=
  { sphereOffset := 0, captureRadius := 2500, centreRadius := 150, minIntensity := 64, rangeAgreement := 200, ringStep := 1500 }

/-- Every block at power-on and while RESETN is low (R24, R27, R77, R78, R103, R136, R140, R141, R156, R163, R175, R204). -/
def State.powerOn : State :=
  { resetnLow := true
    table :=
      { slots := (Vector.replicate 48 { generation := 0, record := none }).set 0 { generation := 0, record := some Record.powerOnHome }
        stationWindow := { base := 1, length := 47 }
        pendantWindow := { base := 40, length := 8 } }
    classes := Vector.replicate 8 ClassEntry.powerOn
    pursuit := none
    arbiter :=
      { queue := [], stack := [], grant := none, priorities := { station := 4, pendant := 5, revisit := 3 }
        runMode := .parked, arrivalCounter := 0 }
    scheduler := { entries := [], frozen := true, passWanted := false }
    ports :=
      { expectedFrame := none, nextMoveTag := 0, latestMoveTag := none, nextRangeTag := 0, outstanding := none, driveOut := [], rangeOut := [] }
    time := { count := 0, offset := 0 }
    notices :=
      { device := 0, recordMask := 0, deviceMask := 0, master := false, falseReturns := 0, rangeFailures := 0, frameRejects := 0
        pendantErrors := 0, line := false }
    sweep := { inFlight := none, lastResult := none }
    link := { received := [], more := false, response := none, ready := false, sdo := [], sdoNext := 0 }
    pendant :=
      { receiver := .hunting, present := false, silenceDeadline := none, markCounter := 0, reported := Vector.replicate 48 none
        sending := none, waiting := [], inBreak := false }
    pending := [] }

/-- The machine right after reset (log 3): power-on, RESETN risen, and the HALT that its rise sends (R125, R136). -/
def State.reset : State :=
  { State.powerOn with resetnLow := false, ports := { State.powerOn.ports with driveOut := [.halt] } }

end Sys2Proof.Machine
end

