-- ==== Sys2Proof/Machine/Ops.lean ====
section
/-! DEFINITION. The named operations over State that every block uses: times, slots and records, the pursuit context, the drive and range links, the
receive buffer and the response. -/

namespace Sys2Proof.Machine

/-- A saturating counter: an increment past the maximum leaves it at the maximum (R152). -/
def satAdd (limit count n : Nat) : Nat := min limit (count + n)

/-! ### Time (6.6) -/

/-- The internal time at which the event in question is taken (00_scope.md Conventions). -/
def State.now (s : State) : Time := s.time.count

/-- Reported time: the internal count plus the offset, modulo 2^48 (R141). -/
def State.reportedNow (s : State) : Time := s.time.count + s.time.offset

/-- An interval given in ms, as µs (Conventions, R140). -/
def timeOfMs (n : Nat) : Time := BitVec.ofNat 48 (n * 1000)

/-- A revisit period in s, as µs (R106). -/
def timeOfPeriod (n : Nat) : Time := BitVec.ofNat 48 (n * 1000000)

/-- The internal count has reached a deadline: deadlines stand at most 3,600 s ahead (R140), so the difference modulo 2^48 tells which side it is on (log 2). -/
def reached (now deadline : Time) : Bool := decide ((now - deadline).toNat < 2 ^ 47)

/-! ### Slots and records (R1, R2) -/

/-- The 48 slots, in rising order. -/
def allSlots : List (Fin 48) := List.finRange 48

/-- A slot of the table. -/
def State.slotAt (s : State) (i : Fin 48) : Slot := s.table.slots[i.val]

/-- The record a slot holds, none while it is VACANT. -/
def State.recordAt (s : State) (i : Fin 48) : Option Record := (s.slotAt i).record

/-- The live record a handle names: its slot is not VACANT and its generation is the slot's (R2). -/
def State.live (s : State) (h : Handle) : Option Record :=
  if (s.slotAt h.slot).generation = h.generation then (s.slotAt h.slot).record else none

/-- A slot written. -/
def State.setSlot (s : State) (i : Fin 48) (v : Slot) : State :=
  { s with table := { s.table with slots := s.table.slots.set i.val v i.isLt } }

/-- A change delivered to the table under a handle: applied if the handle names a live record, refused without effect otherwise (R2, R5). -/
def State.modifyRecord (s : State) (h : Handle) (f : Record → Record) : State :=
  match s.live h with
  | some r => s.setSlot h.slot { generation := h.generation, record := some (f r) }
  | none => s

/-- The handle of a slot as it stands. -/
def State.handleOf (s : State) (i : Fin 48) : Handle := { slot := i, generation := (s.slotAt i).generation }

/-- A state other than DORMANT written, the outcome left as it stands (R5). -/
def State.setRecordState (s : State) (h : Handle) (st : RecState) : State :=
  s.modifyRecord h fun r => { r with state := st }

/-- The slot is VACATED: its record is gone and its generation incremented, wrapping from 255 to 0 (R1, R11). -/
def State.vacate (s : State) (i : Fin 48) : State :=
  s.setSlot i { generation := (s.slotAt i).generation + 1, record := none }

/-! ### The pursuit context (R46) -/

/-- The context rewritten. -/
def State.setContext (s : State) (c : Option Context) : State := { s with pursuit := c }

/-! ### The grant, the queue and the stack (R78) -/

/-- The grant rewritten. -/
def State.setGrant (s : State) (g : Option Request) : State := { s with arbiter := { s.arbiter with grant := g } }

/-- The queue rewritten. -/
def State.setQueue (s : State) (q : List QueueEntry) : State := { s with arbiter := { s.arbiter with queue := q } }

/-- The stack rewritten. -/
def State.setStack (s : State) (t : List Request) : State := { s with arbiter := { s.arbiter with stack := t } }

/-- The run mode rewritten. -/
def State.setRunMode (s : State) (m : RunMode) : State := { s with arbiter := { s.arbiter with runMode := m } }

/-- The arrival counter rewritten. -/
def State.setArrivalCounter (s : State) (n : Nat) : State := { s with arbiter := { s.arbiter with arrivalCounter := n } }

/-! ### The revisit scheduler's fields (R103) -/

/-- The revisit list rewritten. -/
def State.setEntries (s : State) (l : List RevisitEntry) : State := { s with scheduler := { s.scheduler with entries := l } }

/-- The scheduler frozen or released (R116). -/
def State.setFrozen (s : State) (b : Bool) : State := { s with scheduler := { s.scheduler with frozen := b } }

/-- A trigger of R109 seen, or the triggers taken (log 5). -/
def State.setPassWanted (s : State) (b : Bool) : State := { s with scheduler := { s.scheduler with passWanted := b } }

/-! ### The drive link (6.2) -/

/-- A MOVE is sent: it takes the next move tag, which becomes the latest, and the next is one more, modulo 256 (R126). -/
def State.sendMove (s : State) (d : Direction) : State :=
  { s with ports := { s.ports with
      latestMoveTag := some s.ports.nextMoveTag
      nextMoveTag := s.ports.nextMoveTag + 1
      driveOut := s.ports.driveOut ++ [.move d s.ports.nextMoveTag] } }

/-- A FOLLOW is sent; the tags stand (R127). -/
def State.sendFollow (s : State) (d : Direction) : State :=
  { s with ports := { s.ports with driveOut := s.ports.driveOut ++ [.follow d] } }

/-- A HALT is sent; the latest move tag becomes absent (R127). -/
def State.sendHalt (s : State) : State :=
  { s with ports := { s.ports with latestMoveTag := none, driveOut := s.ports.driveOut ++ [.halt] } }

/-! ### The range link (6.3) -/

/-- The time a range request may take, 250,000 µs (R132). -/
def rangeTimeoutLength : Time := 250000#48

/-- A RANGE request is sent: it takes the next range tag and replaces the request outstanding (R132). -/
def State.sendRange (s : State) : State :=
  { s with ports := { s.ports with
      outstanding := some { tag := s.ports.nextRangeTag, deadline := s.now + rangeTimeoutLength }
      nextRangeTag := s.ports.nextRangeTag + 1
      rangeOut := s.ports.rangeOut ++ [s.ports.nextRangeTag] } }

/-- The outstanding range request becomes absent and its deadline is cancelled (R133, R134, R135). -/
def State.withdrawRange (s : State) : State := { s with ports := { s.ports with outstanding := none } }

/-- The expected frame number rewritten (R123). -/
def State.setExpectedFrame (s : State) (n : Option Byte) : State := { s with ports := { s.ports with expectedFrame := n } }

/-! ### The links -/

/-- Nothing has been sent yet in the event that begins (log 11). -/
def State.quiet (s : State) : State :=
  { s with
    ports := { s.ports with driveOut := [], rangeOut := [] }
    link := { s.link with sdo := [], sdoNext := 0 } }

/-- The codes of the answers (9.5, R203). -/
def answerCode : Answer → Byte
  | .ok => 0x01#8 | .already => 0x02#8 | .badFrame => 0x03#8 | .unknown => 0x04#8 | .range => 0x05#8 | .stale => 0x06#8
  | .vacant => 0x07#8 | .owner => 0x08#8 | .busy => 0x09#8 | .full => 0x0A#8 | .kind => 0x0B#8 | .overlap => 0x0C#8
  | .parked => 0x0D#8 | .noAim => 0x0E#8 | .home => 0x0F#8 | .notLocked => 0x10#8

/-- A response frame's bytes (R181). -/
def Response.bytes (r : Response) : List Byte := linkFrame (answerCode r.status) r.payload

/-- Byte n of what SDO shifts out: the pending response from its first byte, then 0x00; without one 0x00 throughout (R176, R177). -/
def sdoStream (response : Option Response) (n : Nat) : Byte := ((response.map Response.bytes).getD []).getD n 0#8

/-- What SDO shifts out at each of a transaction's clocks, from the first: the bytes of its stream, each most significant bit first (R176). -/
def sdoBits (response : Option Response) (clocks : Nat) : List Bool :=
  (List.range clocks).map fun k => (sdoStream response (k / 8)).getMsbD (k % 8)

/-- SDO shifts a response, or 0x00 throughout, out at a number of clocks (R176, log 16). -/
def State.shiftOut (s : State) (response : Option Response) (clocks : Nat) : State :=
  { s with link := { s.link with sdo := sdoBits response clocks, sdoNext := sdoStream response (clocks / 8) } }

/-- A transaction's complete bytes are clocked in, the pending response is shifted out at its clocks: the buffer keeps 34 bytes, and whether more came
(R175, R176). -/
def State.clock (s : State) (bytes : List Byte) (clocks : Nat) : State :=
  let t := s.shiftOut s.link.response clocks
  { t with link := { t.link with received := bytes.take 34, more := decide (34 < bytes.length) } }

/-- The pending response is discarded or consumed, and READY falls (R177, R178, R182). -/
def State.dropResponse (s : State) : State := { s with link := { s.link with response := none, ready := false } }

/-- A response is formed: it is pending, and READY rises (R180, R182). -/
def State.respond (s : State) (r : Response) : State := { s with link := { s.link with response := some r, ready := true } }

end Sys2Proof.Machine
end

