-- ==== Sys2Proof/Machine/Flags.lean ====
section
/-! DEFINITION. Notice sets, the NOTICE line and the device counters (chapter 7): every flag the part raises. -/

namespace Sys2Proof.Machine

/-- The bit of a record notice kind: bit n for the kind numbered n (R143, R183). -/
def recordBit : RecordNotice → BitVec 8
  | .fix => 0x01#8 | .lock => 0x02#8 | .break => 0x04#8 | .lost => 0x08#8
  | .drift => 0x10#8 | .ambig => 0x20#8 | .drop => 0x40#8 | .miss => 0x80#8

/-- The bit of a device notice kind: bit n for the kind numbered n (R145, R183). -/
def deviceBit : DeviceNotice → BitVec 7
  | .falseReturn => 0x01#7 | .drive => 0x02#7 | .range => 0x04#7 | .pendant => 0x08#7
  | .link => 0x10#7 | .sweep => 0x20#7 | .home => 0x40#7

/-- The unmasked pending kinds of the device set (R147). -/
def NoticeUnit.unmaskedDevice (n : NoticeUnit) : BitVec 7 := n.device &&& ~~~n.deviceMask

/-- The unmasked pending kinds of a record (R147). -/
def NoticeUnit.unmaskedRecord (n : NoticeUnit) (r : Record) : BitVec 8 := r.notices &&& ~~~n.recordMask

/-- A slot holds a live record with an unmasked pending kind. -/
def State.slotPending (s : State) (i : Fin 48) : Bool :=
  match s.recordAt i with
  | some r => decide (s.notices.unmaskedRecord r ≠ 0#8)
  | none => false

/-- Some unmasked kind is pending, in the device set or in the set of a live record (R149, R150). -/
def State.anyPending (s : State) : Bool := decide (s.notices.unmaskedDevice ≠ 0#7) || allSlots.any s.slotPending

/-- The NOTICE line judged anew: high while the master enable is on and an unmasked kind is pending (R149). -/
def State.judgeLine (s : State) : State :=
  { s with notices := { s.notices with line := s.notices.master && s.anyPending } }

/-- A device notice is set (R145), and the line judged. -/
def State.setDeviceNotice (s : State) (k : DeviceNotice) : State :=
  State.judgeLine { s with notices := { s.notices with device := s.notices.device ||| deviceBit k } }

/-- A record notice is delivered under a handle: set if the handle names a live record, refused otherwise (R143, R144), and the line judged. -/
def State.setRecordNotice (s : State) (k : RecordNotice) (h : Handle) : State :=
  (s.modifyRecord h fun r => { r with notices := r.notices ||| recordBit k }).judgeLine

/-- One false return: FALSE is set if the counter stands at 0, then the counter is incremented (R146, R152). -/
def State.countFalseReturn (s : State) : State :=
  let s := if s.notices.falseReturns = 0 then s.setDeviceNotice .falseReturn else s
  { s with notices := { s.notices with falseReturns := satAdd 65535 s.notices.falseReturns 1 } }

/-- One pendant frame error: LINK is set if the counter stands at 0, then the counter is incremented (R146, R152). -/
def State.countPendantError (s : State) : State :=
  let s := if s.notices.pendantErrors = 0 then s.setDeviceNotice .link else s
  { s with notices := { s.notices with pendantErrors := satAdd 255 s.notices.pendantErrors 1 } }

/-- One range failure (R152). -/
def State.countRangeFailure (s : State) : State :=
  { s with notices := { s.notices with rangeFailures := satAdd 65535 s.notices.rangeFailures 1 } }

/-- Frame rejects: one for a rejected frame, the size of the gap for missing frames (R122, R123, R152). -/
def State.countFrameRejects (s : State) (n : Nat) : State :=
  { s with notices := { s.notices with frameRejects := satAdd 65535 s.notices.frameRejects n } }

/-- The four counters cleared (R154, R156). -/
def State.clearCounters (s : State) : State :=
  { s with notices := { s.notices with falseReturns := 0, rangeFailures := 0, frameRejects := 0, pendantErrors := 0 } }

end Sys2Proof.Machine
end

