-- ==== Sys2Proof/Machine/Geometry.lean ====
section
/-! DEFINITION. Directions, windows, positions, the overlap test and prediction (2.2, 2.3). -/

namespace Sys2Proof.Machine

/-- An azimuth normalised to −3,141,592 to +3,141,592 by whole turns of 6,283,185 µrad (R32). -/
def normAzimuth (a : Int) : Int := (a + 3141592) % 6283185 - 3141592

/-- An elevation held at the nearer end of ±1,500,000 µrad (R32). -/
def holdElevation (e : Int) : Int := max (-1500000) (min 1500000 e)

/-- The azimuth difference of two directions, taken the short way round (R32). -/
def azimuthDifference (a b : Direction) : Int := normAzimuth (a.azimuth - b.azimuth)

/-- The elevation difference of two directions (R32). -/
def elevationDifference (a b : Direction) : Int := a.elevation - b.elevation

/-- Both differences have a magnitude of at most n. -/
def withinSquare (a b : Direction) (n : Nat) : Bool :=
  decide ((azimuthDifference a b).natAbs ≤ n) && decide ((elevationDifference a b).natAbs ≤ n)

/-- A direction is inside the square window of a centre and a half-width; a direction on the edge is inside (R33). -/
def insideWindow (d centre : Direction) (halfWidth : Nat) : Bool := withinSquare d centre halfWidth

/-- A direction is within the limits of the drive's requests (R131). -/
def Direction.inLimits (d : Direction) : Bool :=
  decide (-3141592 ≤ d.azimuth) && decide (d.azimuth ≤ 3141592) && decide (-1500000 ≤ d.elevation) && decide (d.elevation ≤ 1500000)

/-- The class entry of a record (R28). -/
def State.classOf (s : State) (r : Record) : ClassEntry := s.classes[r.cls.val]

/-- The effective window of a record: its window parameter, or its class's capture radius where that is 0 (R33). -/
def State.effectiveWindow (s : State) (r : Record) : Nat :=
  if r.params.window = 0 then (s.classOf r).captureRadius else r.params.window

/-- A record of kind NEST or HOME (00_scope.md Terms). -/
def Record.isFixed (r : Record) : Bool := decide (r.kind ≠ .roving)

/-- The position of a fixed record: its reference, else its last fix; a ROVING record has none (R34). -/
def Record.position (r : Record) : Option Direction :=
  if r.isFixed then
    match r.reference with
    | some ref => some ref.direction
    | none => r.fix.map (·.direction)
  else none

/-- The window of a fixed record with a position: its centre and its half-width (R33). -/
def State.zone (s : State) (i : Fin 48) : Option (Direction × Nat) :=
  match s.recordAt i with
  | some r => r.position.map fun d => (d, s.effectiveWindow r)
  | none => none

/-- Two slots hold fixed records with positions whose windows overlap: both gaps are at most the sum of the two windows (R35). -/
def State.pairOverlaps (s : State) (i j : Fin 48) : Bool :=
  match s.zone i, s.zone j with
  | some a, some b => withinSquare a.1 b.1 (a.2 + b.2)
  | _, _ => false

/-- A slot holds a fixed record with a reference. -/
def State.referenced (s : State) (i : Fin 48) : Bool :=
  match s.recordAt i with
  | some r => r.isFixed && r.reference.isSome
  | none => false

/-- A pair fails the window test: it overlaps after the change, and it did not before or both members then have references (R35). -/
def pairFails (before after : State) (i j : Fin 48) : Bool :=
  after.pairOverlaps i j && (!before.pairOverlaps i j || (after.referenced i && after.referenced j))

/-- The window test of one record against every other fixed record with a position (R35). -/
def windowTestFails (before after : State) (i : Fin 48) : Bool :=
  allSlots.any fun j => decide (j ≠ i) && pairFails before after i j

/-- A slot's window overlaps that of another fixed record with a position (R36). -/
def State.overlapsAny (s : State) (i : Fin 48) : Bool := allSlots.any fun j => decide (j ≠ i) && s.pairOverlaps i j

/-! ### Prediction (2.3) -/

/-- One angular component carried forward for e µs at a rate, truncated toward zero to a whole µrad (R38). -/
def carried (component rate : Int) (e : Nat) : Int := component + (rate * e).tdiv 1000000

/-- A ROVING record's fix carried forward by its motion estimate to internal time t, for its coast time at most (R38). -/
def carryForward (f : Fix) (m : Motion) (coastTime : Nat) (t : Time) : Direction :=
  let e := min (t - f.composed).toNat (coastTime * 1000)
  { azimuth := normAzimuth (carried f.direction.azimuth m.azimuthRate e)
    elevation := holdElevation (carried f.direction.elevation m.elevationRate e) }

/-- A record's own source of prediction, without the aim (R37). -/
def Record.ownPrediction (r : Record) (t : Time) : Option Direction :=
  if r.isFixed then r.position
  else
    match r.fix, r.motion with
    | some f, some m => some (carryForward f m r.params.coastTime t)
    | some f, none => some f.direction
    | none, _ => none

/-- The prediction of a record at internal time t: its own source, else the aim (R37). -/
def Record.prediction (r : Record) (aim : Option Direction) (t : Time) : Option Direction := (r.ownPrediction t).orElse fun _ => aim

/-! ### Other fixed records' windows (R42, R45) -/

/-- A direction lies in the window of the fixed record in a slot. -/
def State.insideZone (s : State) (d : Direction) (i : Fin 48) : Bool :=
  match s.zone i with
  | some z => insideWindow d z.1 z.2
  | none => false

/-- The lowest-numbered fixed record other than the target whose window contains a direction (R45). -/
def State.nearSlotOf (s : State) (target : Fin 48) (d : Direction) : Option (Fin 48) :=
  allSlots.find? fun j => decide (j ≠ target) && s.insideZone d j

end Sys2Proof.Machine
end

