-- ==== Sys2Proof/Machine/Scheduler.lean ====
section
/-! DEFINITION. What the revisit scheduler does when another block tells it something: the order of its list, misses, the reports of ends, satisfaction by
a fix, and the drift check (5.1, 5.4, 5.7). Its offer passes stand with the arbiter, which takes the offers (Arbiter.lean). -/

namespace Sys2Proof.Machine

/-! ### The list (R103) -/

/-- The order of the list: due time ascending, ties by slot ascending (R103, log 13). -/
def RevisitEntry.before (a b : RevisitEntry) : Bool :=
  decide (a.due.toNat < b.due.toNat) || (decide (a.due = b.due) && decide (a.handle.slot.val < b.handle.slot.val))

/-- An entry placed in order. -/
def insertEntry (e : RevisitEntry) : List RevisitEntry → List RevisitEntry
  | [] => [e]
  | x :: xs => if e.before x then e :: x :: xs else x :: insertEntry e xs

/-- The entry of the record in a slot. -/
def State.entryAt (s : State) (i : Fin 48) : Option RevisitEntry := s.scheduler.entries.find? fun e => decide (e.handle.slot = i)

/-- The list without the entry of a slot. -/
def withoutEntry (i : Fin 48) (l : List RevisitEntry) : List RevisitEntry := l.filter fun e => decide (e.handle.slot ≠ i)

/-- An entry's due time and status written: it is placed again in order (R103). -/
def State.placeEntry (s : State) (e : RevisitEntry) : State :=
  s.setEntries (insertEntry e (withoutEntry e.handle.slot s.scheduler.entries))

/-- The entry of a slot removed, whatever its status (R106, R107). -/
def State.removeEntry (s : State) (i : Fin 48) : State := s.setEntries (withoutEntry i s.scheduler.entries)

/-- The status of a slot's entry written; the entry keeps its place (R103, R108). -/
def State.setEntryStatus (s : State) (i : Fin 48) (st : RevisitStatus) : State :=
  s.setEntries (s.scheduler.entries.map fun e => if e.handle.slot = i then { e with status := st } else e)

/-- Every OFFERED entry becomes DUE with its due time kept (R116). -/
def State.offeredBecomeDue (s : State) : State :=
  s.setEntries (s.scheduler.entries.map fun e => if e.status = .offered then { e with status := .due } else e)

/-- The due time of a record as a client sees it: the internal due time plus the offset as it stands, absent without an entry (R4, R141). -/
def State.shownDue (s : State) (i : Fin 48) : Option Time := (s.entryAt i).map fun e => e.due + s.time.offset

/-- The due time one period after a given time, SCHEDULED (R111, R112, R113). -/
def State.scheduleAfter (s : State) (h : Handle) (r : Record) (t : Time) : State :=
  s.placeEntry { handle := h, due := t + timeOfPeriod r.period, status := .scheduled }

/-! ### A record becomes DORMANT (R5, R109) -/

/-- DORMANT is delivered with its outcome (R5); the table tells the scheduler if the record's entry is DUE (R109). -/
def State.toDormant (s : State) (h : Handle) (o : EndOutcome) : State :=
  let s := s.modifyRecord h fun r => { r with state := .dormant, outcome := o }
  match s.entryAt h.slot with
  | some e => if e.status = .due then s.setPassWanted true else s
  | none => s

/-! ### Misses and reports (R111, R113, R114, R115) -/

/-- A miss: the count is incremented, saturating at 15, MISS is set, and the due time becomes now plus the period (R111, R113). -/
def State.miss (s : State) (h : Handle) : State :=
  match s.live h with
  | some r =>
    ((s.modifyRecord h fun r => { r with missCount := satAdd 15 r.missCount 1 }).setRecordNotice .miss h).scheduleAfter h r s.now
  | none => s

/-- The scheduler's action on the report of the end or removal of a REVISIT-origin request (R113). -/
def State.revisitReport (s : State) (h : Handle) (o : EndOutcome) : State :=
  match s.entryAt h.slot with
  | none => s
  | some e =>
    if e.status = .offered then
      match o with
      | .lost | .fault => s.miss h
      | .released =>
        match s.live h with
        | some r => s.scheduleAfter h r s.now
        | none => s
      | .parked => s.setEntryStatus h.slot .due
      | _ => s
    else s

/-- The drift state of a record is OUT. -/
def State.driftOut (s : State) (h : Handle) : Bool :=
  match s.live h with
  | some r => decide (r.drift = .outside)
  | none => false

/-- The report of the end of a REVISIT-origin or INTERNAL-origin request (R113, R114). A pass follows unless the outcome is PARKED (R109). -/
def State.reportEnd (s : State) (q : Request) (o : EndOutcome) : State :=
  match q.origin with
  | .revisit => let s := s.revisitReport q.handle o; if o = .parked then s else s.setPassWanted true
  | .internal =>
    let s := if o = .done ∧ s.driftOut q.handle = true then s.setDeviceNotice .home else s
    if o = .parked then s else s.setPassWanted true
  | .station | .pendant => s

/-! ### Fixes (R112, R118, R119) -/

/-- A fix satisfies the revisit of a record that has an entry (R112). -/
def State.satisfyRevisit (s : State) (h : Handle) (f : Fix) : State :=
  match s.entryAt h.slot, s.live h with
  | some _, some r => (s.modifyRecord h fun r => { r with missCount := 0 }).scheduleAfter h r f.composed
  | _, _ => s

/-- The deviation of a fix from a reference (R118). -/
def deviationOf (f : Fix) (ref : Reference) : Deviation :=
  { azimuth := azimuthDifference f.direction ref.direction
    elevation := elevationDifference f.direction ref.direction
    range := (f.range : Int) - (ref.range : Int) }

/-- The drift state a deviation gives under the tolerances; a component equal to its tolerance is within it (R118). -/
def driftOf (d : Deviation) (angleTolerance rangeTolerance : Nat) : DriftState :=
  if angleTolerance < d.azimuth.natAbs ∨ angleTolerance < d.elevation.natAbs ∨ rangeTolerance < d.range.natAbs then .outside else .within

/-- DRIFT is set when the drift state changes, except from NONE to IN (R119). -/
def driftReported (old new : DriftState) : Bool := decide (old ≠ new) && !(decide (old = .none) && decide (new = .within))

/-- The drift check of a fix of a fixed record with a reference (R118, R119). -/
def State.driftCheck (s : State) (h : Handle) (f : Fix) : State :=
  match s.live h with
  | none => s
  | some r =>
    match r.reference with
    | none => s
    | some ref =>
      let d := deviationOf f ref
      let new := driftOf d r.angleTolerance r.rangeTolerance
      let s := s.modifyRecord h fun r => { r with lastDeviation := some d, drift := new }
      if driftReported r.drift new then s.setRecordNotice .drift h else s

/-- A fix of a fixed record reaches the scheduler, written or discarded (R112, R118). -/
def State.fixToScheduler (s : State) (h : Handle) (f : Fix) : State := (s.satisfyRevisit h f).driftCheck h f

end Sys2Proof.Machine
end

