-- ==== Sys2Proof/Machine/Arbiter.lean ====
section
/-! DEFINITION. The beam arbiter's shared work: queue entries, grants, selection, preemption, ends of pursuits, removals, and the scheduler's offer passes
(chapter 4, 5.3); with them the pursuit unit's taking of a grant and of an end (R48, R73). -/

namespace Sys2Proof.Machine

/-! ### Queue and stack (R79, R80, R82) -/

/-- The priority table's value for an origin; INTERNAL is fixed at 7 (R82). -/
def PriorityTable.value (p : PriorityTable) : Origin → Nat
  | .station => p.station
  | .pendant => p.pendant
  | .revisit => p.revisit
  | .internal => 7

/-- The entries renumbered from 0 upward in their present arrival order (R79). -/
def renumber (q : List QueueEntry) : List QueueEntry :=
  q.map fun e => { e with arrival := (q.filter fun x => decide (x.arrival < e.arrival)).length }

/-- A new queue entry: it takes the arrival counter's value, the entries being renumbered first at the wrap (R79). -/
def State.makeEntry (s : State) (q : Request) : State :=
  let s := if s.arbiter.arrivalCounter = 65535 then (s.setQueue (renumber s.arbiter.queue)).setArrivalCounter s.arbiter.queue.length else s
  (s.setQueue (s.arbiter.queue ++ [{ request := q, arrival := s.arbiter.arrivalCounter }])).setArrivalCounter (s.arbiter.arrivalCounter + 1)

/-- A record enters the queue and becomes QUEUED (R84, R87, R90, R100). -/
def State.enqueue (s : State) (q : Request) : State := (s.makeEntry q).setRecordState q.handle .queued

/-- The queue without the entry of a slot. -/
def withoutQueued (i : Fin 48) (q : List QueueEntry) : List QueueEntry := q.filter fun e => decide (e.request.handle.slot ≠ i)

/-- The stack without the entry of a slot; the others keep their order (R80). -/
def withoutStacked (i : Fin 48) (t : List Request) : List Request := t.filter fun e => decide (e.handle.slot ≠ i)

/-- The queue entry of a slot. -/
def State.queuedAt (s : State) (i : Fin 48) : Option QueueEntry := s.arbiter.queue.find? fun e => decide (e.request.handle.slot = i)

/-- The stack entry of a slot. -/
def State.stackedAt (s : State) (i : Fin 48) : Option Request := s.arbiter.stack.find? fun e => decide (e.handle.slot = i)

/-- Of two queue entries the one selection takes first: the higher priority, among equals the lower arrival number (R88, R89). -/
def QueueEntry.beats (a b : QueueEntry) : Bool :=
  decide (b.request.priority < a.request.priority) || (decide (a.request.priority = b.request.priority) && decide (a.arrival < b.arrival))

/-- The queue entry that selection takes first (R88, R89). -/
def bestEntry : List QueueEntry → Option QueueEntry
  | [] => none
  | e :: rest =>
    match bestEntry rest with
    | none => some e
    | some b => if b.beats e then some b else some e

/-! ### The pursuit unit takes a grant and an end (R48, R73) -/

/-- The fresh context of a grant whose prediction is d: the MOVE of the slew is in flight (R48). -/
def Context.fresh (q : Request) (d : Direction) : Context :=
  { target := q.handle, origin := q.origin, aimDirection := d, stage := .slewing, moveInFlight := true, rangeInFlight := false
    lastCaptured := none, latestIntensity := none, centredCount := 0, readings := 0, heldReading := none, fixWait := none
    coastDeadline := none, search := none, nearSlot := none, pendingMark := none }

/-- The prediction of a request's record at an internal time, with the aim the request carries (R37). -/
def State.predictionFor (s : State) (q : Request) (t : Time) : Option Direction :=
  match s.live q.handle with
  | some r => r.prediction q.aim t
  | none => none

/-- A record is granted and slewed to its prediction (R48, R88). -/
def State.startSlew (s : State) (q : Request) (d : Direction) : State :=
  (((s.setGrant (some q)).setContext (some (Context.fresh q d))).sendMove d).setRecordState q.handle (.active .slewing)

/-- The pursuit unit takes an end: the context is cleared, the range request withdrawn, and the lock latch of a target found LOCKED cleared unless the end
is a RELEASE or a RETIRE (R73, R22). -/
def State.endPursuit (s : State) (clearLatch : Bool) : State :=
  match s.pursuit with
  | none => s
  | some c =>
    let s := (s.setContext none).withdrawRange
    if clearLatch = true ∧ c.stage = .locked then s.modifyRecord c.target fun r => { r with lockLatch := false } else s

/-- Steps 1 to 3 of R97 for the request that held the grant: DORMANT with the outcome, the report to the scheduler, and HOME for a home check LOST or
FAULT. -/
def State.closeRequest (s : State) (q : Request) (o : EndOutcome) : State :=
  let s := ((s.setGrant none).toDormant q.handle o).reportEnd q o
  if q.origin = .internal ∧ (o = .lost ∨ o = .fault) then s.setDeviceNotice .home else s

/-- A record granted with no prediction: no MOVE, outcome LOST, the LOST notice, and the arbiter's steps before the regrant (R39, R74). -/
def State.lostAtGrant (s : State) (q : Request) : State := (s.setRecordNotice .lost q.handle).closeRequest q .lost

/-! ### Selection (R88) -/

/-- The winner's entry leaves the queue, and the scheduler is told (R79, R88). -/
def State.loseEntry (s : State) (e : QueueEntry) : State :=
  (s.setQueue (withoutQueued e.request.handle.slot s.arbiter.queue)).setPassWanted true

/-- The winner of a selection with the collection it leaves: the highest priority; at equal priority the stack top, then the lowest arrival (R88). -/
def State.pickWinner (s : State) : Option (Request × State) :=
  match s.arbiter.stack, bestEntry s.arbiter.queue with
  | [], none => none
  | t :: rest, none => some (t, s.setStack rest)
  | [], some e => some (e.request, s.loseEntry e)
  | t :: rest, some e =>
    if e.request.priority ≤ t.priority then some (t, s.setStack rest)
    else some (e.request, s.loseEntry e)

/-- Selections until a record slews or the collections are empty; fuel bounds the records that end LOST at their grant (R39). halt says that an end of
pursuit came before, so that a grant left empty sends HALT (R76, R97). -/
def selectLoop : (fuel : Nat) → (halt : Bool) → State → State
  | 0, halt, s => if halt then s.sendHalt else s
  | n + 1, halt, s =>
    match s.pickWinner with
    | none => if halt then s.sendHalt else s
    | some (q, s1) =>
      match s1.predictionFor q s1.now with
      | some d => s1.startSlew q d
      | none => selectLoop n true (s1.lostAtGrant q)

/-- Selection, made whenever the beam is free (R88); every turn of the loop takes an entry out, so the fuel is enough. -/
def State.select (s : State) (halt : Bool) : State :=
  if s.arbiter.grant.isNone = true ∧ s.arbiter.runMode = .running then
    selectLoop (s.arbiter.queue.length + s.arbiter.stack.length) halt s
  else s

/-- A record that holds no prediction at its grant is LOST and the arbiter regrants; otherwise it slews (R39, R48, R89). -/
def State.grantTo (s : State) (q : Request) : State :=
  match s.predictionFor q s.now with
  | some d => s.startSlew q d
  | none => (s.lostAtGrant q).select true

/-! ### Preemption (R89 to R92) -/

/-- A push on the resume stack; a full stack first drops its bottom entry, whose record becomes DORMANT with outcome DROPPED and the DROP notice (R91). -/
def State.pushStack (s : State) (q : Request) : State :=
  let s :=
    match s.arbiter.stack[3]? with
    | some bottom => ((s.setStack (s.arbiter.stack.take 3)).toDormant bottom.handle .dropped).setRecordNotice .drop bottom.handle
    | none => s
  (s.setStack (q :: s.arbiter.stack)).setRecordState q.handle .suspended

/-- A record's auto-resume, read at the preemption itself (R92). -/
def State.autoResumeOf (s : State) (h : Handle) : Bool :=
  match s.live h with
  | some r => r.autoResume
  | none => false

/-- The preempted record is disposed of by its grant's origin and its auto-resume (R90, R91, R92); where it does not re-enter the queue, the queue has
lost the winner's entry and the scheduler is told (R89). -/
def State.dispose (s : State) (g : Request) : State :=
  match g.origin with
  | .revisit | .internal => s.enqueue g
  | .station | .pendant =>
    if s.autoResumeOf g.handle then (s.pushStack g).setPassWanted true
    else ((s.toDormant g.handle .preempted).setRecordNotice .drop g.handle).setPassWanted true

/-- A preemption of the grant g by the queue entry e, in the order of R89. -/
def State.preempt (s : State) (g : Request) (e : QueueEntry) : State :=
  let s := s.setQueue (withoutQueued e.request.handle.slot s.arbiter.queue)
  let s := (s.endPursuit true).setGrant none
  (s.dispose g).grantTo e.request

/-- The preemption test: a queue entry of strictly higher priority than the grant takes the beam (R89). -/
def State.preemptionTest (s : State) : State :=
  match s.arbiter.grant, bestEntry s.arbiter.queue with
  | some g, some e => if g.priority < e.request.priority then s.preempt g e else s
  | _, _ => s

/-- After a new entry: selection if the grant is empty, the preemption test otherwise (R84, R87). -/
def State.arbitrate (s : State) : State := if s.arbiter.grant.isNone then s.select false else s.preemptionTest

/-! ### Ends and removals (R93, R95, R96, R97) -/

/-- An end that the pursuit unit hands up (R97). -/
def State.pursuitEnds (s : State) (o : EndOutcome) : State :=
  match s.arbiter.grant with
  | none => s
  | some g => ((s.endPursuit true).closeRequest g o).select true

/-- An end LOST: the pursuit unit sets the LOST notice on the record and hands the end up (R74). -/
def State.pursuitLost (s : State) : State :=
  match s.arbiter.grant with
  | none => s
  | some g => (s.setRecordNotice .lost g.handle).pursuitEnds .lost

/-- RELEASE of a live record (R93): ALREADY while it is DORMANT; otherwise its request is removed from wherever it stands. -/
def State.releaseRecord (s : State) (h : Handle) (r : Record) : State × Answer :=
  match r.state with
  | .dormant => (s, .already)
  | .queued =>
    match s.queuedAt h.slot with
    | some e =>
      (((s.setQueue (withoutQueued h.slot s.arbiter.queue)).toDormant h .released).reportEnd e.request .released, .ok)
    | none => (s.toDormant h .released, .ok)
  | .suspended =>
    match s.stackedAt h.slot with
    | some q => (((s.setStack (withoutStacked h.slot s.arbiter.stack)).toDormant h .released).reportEnd q .released, .ok)
    | none => (s.toDormant h .released, .ok)
  | .active _ =>
    match s.arbiter.grant with
    | some g => (((((s.endPursuit false).setGrant none).toDormant h .released).reportEnd g .released).select true, .ok)
    | none => (s.toDormant h .released, .ok)

/-- The report of a request removed at a RETIRE: the record's entry is gone, so only a pass follows, for REVISIT origin (R95, R109, R113). -/
def State.reportRemoval (s : State) (q : Option Request) : State :=
  match q with
  | some q => if q.origin = .revisit then s.setPassWanted true else s
  | none => s

/-- RETIRE of a live record (R11, R95, R107): it leaves the revisit list and whatever collection holds it, its slot is vacated and its notices are
discarded, and a beam it held is regranted. -/
def State.retireRecord (s : State) (h : Handle) (r : Record) : State × Answer :=
  if h.slot = 0 then (s, .home)
  else
    let s := s.removeEntry h.slot
    match r.state with
    | .dormant => ((s.vacate h.slot).judgeLine, .ok)
    | .queued =>
      let q := (s.queuedAt h.slot).map (·.request)
      ((((s.setQueue (withoutQueued h.slot s.arbiter.queue)).reportRemoval q).vacate h.slot).judgeLine, .ok)
    | .suspended =>
      let q := s.stackedAt h.slot
      ((((s.setStack (withoutStacked h.slot s.arbiter.stack)).reportRemoval q).vacate h.slot).judgeLine, .ok)
    | .active _ =>
      let g := s.arbiter.grant
      ((((((s.endPursuit false).setGrant none).reportRemoval g).vacate h.slot).judgeLine).select true, .ok)

/-- PENDANT-origin queue entries that a claim names are removed: each record becomes DORMANT with outcome RELEASED (R96). -/
def State.removePendantEntries (s : State) (claimed : Handle → Bool) : State :=
  let gone := s.arbiter.queue.filter fun e => decide (e.request.origin = .pendant) && claimed e.request.handle
  let kept := s.arbiter.queue.filter fun e => !(decide (e.request.origin = .pendant) && claimed e.request.handle)
  gone.foldl (fun s e => s.toDormant e.request.handle .released) (s.setQueue kept)

/-! ### Requests for the beam (R84, R87) -/

/-- A queue entry after a merge: the higher priority, the aim replaced if the request carries one; origin and arrival kept (R84). -/
def QueueEntry.merge (e : QueueEntry) (priority : Nat) (aim : Option Direction) : QueueEntry :=
  { e with request := { e.request with priority := max e.request.priority priority, aim := aim.orElse fun _ => e.request.aim } }

/-- A stack entry raised: the higher priority, the aim replaced if the request carries one; origin and place kept (R84). -/
def Request.raise (q : Request) (priority : Nat) (aim : Option Direction) : Request :=
  { q with priority := max q.priority priority, aim := aim.orElse fun _ => q.aim }

/-- The queue holds 12 entries (R79). -/
def State.queueFull (s : State) : Bool := decide (12 ≤ s.arbiter.queue.length)

/-- PURSUE of a live record after its checks, by the record's state (R84). -/
def State.pursueRecord (s : State) (h : Handle) (r : Record) (origin : Origin) (priority : Nat) (aim : Option Direction) : State × Answer :=
  match r.state with
  | .dormant =>
    if (r.prediction aim s.now).isNone then (s, .noAim)
    else if s.queueFull then (s, .full)
    else ((s.enqueue { handle := h, origin := origin, priority := priority, aim := aim }).arbitrate, .ok)
  | .queued =>
    let q := s.arbiter.queue.map fun e => if e.request.handle.slot = h.slot then e.merge priority aim else e
    ((s.setQueue q).preemptionTest, .already)
  | .suspended =>
    let t := s.arbiter.stack.map fun q => if q.handle.slot = h.slot then q.raise priority aim else q
    (s.setStack t, .already)
  | .active _ => (s, .already)

/-- A revisit offer for the record of an entry (R87); an offer taken makes the entry OFFERED (R104, R110). -/
def State.takeOffer (s : State) (h : Handle) : State × Answer :=
  if s.arbiter.runMode = .parked then (s, .parked)
  else
    match s.live h with
    | none => (s, .already)
    | some r =>
      if r.state ≠ .dormant then (s, .already)
      else if r.position.isNone then (s, .noAim)
      else if s.queueFull then (s, .full)
      else
        let q : Request := { handle := h, origin := .revisit, priority := s.arbiter.priorities.value .revisit, aim := none }
        (((s.setEntryStatus h.slot .offered).enqueue q).arbitrate, .ok)

/-! ### Offer passes (R109, R110, R111) -/

/-- The entry is DUE and its record DORMANT: a pass offers it (R110). -/
def State.offerable (s : State) (i : Fin 48) : Option Handle :=
  match s.entryAt i with
  | some e =>
    if e.status = .due then
      match s.live e.handle with
      | some r => if r.state = .dormant then some e.handle else none
      | none => none
    else none
  | none => none

/-- The walk of a pass over the slots of the DUE entries, in list order: it ends on FULL or PARKED (R110). -/
def offerWalk : List (Fin 48) → State → State
  | [], s => s
  | i :: rest, s =>
    match s.offerable i with
    | none => offerWalk rest s
    | some h =>
      match s.takeOffer h with
      | (s1, .full) => s1
      | (s1, .parked) => s1
      | (s1, .noAim) => offerWalk rest (s1.miss h)
      | (s1, _) => offerWalk rest s1

/-- The slots of the DUE entries, in list order. -/
def State.dueSlots (s : State) : List (Fin 48) :=
  (s.scheduler.entries.filter fun e => decide (e.status = .due)).map fun e => e.handle.slot

/-- One offer pass (R110). -/
def State.offerPass (s : State) : State := offerWalk s.dueSlots s

/-- The passes of an event, while the scheduler is released (R109). A pass that takes an offer may itself leave the queue with fewer entries or a DUE
record DORMANT, and then another follows; each offer taken leaves one entry fewer DUE, so fuel above the number of DUE entries is enough. -/
def passLoop : (fuel : Nat) → State → State
  | 0, s => s.setPassWanted false
  | n + 1, s =>
    if s.scheduler.passWanted = true ∧ s.scheduler.frozen = false then
      let count := s.arbiter.queue.length
      let s1 := (s.setPassWanted false).offerPass
      passLoop n (if s1.arbiter.queue.length < count then s1.setPassWanted true else s1)
    else s.setPassWanted false

/-- The end of an event that began with count entries in the queue: the scheduler is told if the queue holds fewer (R79), and makes its passes (log 5). -/
def State.settle (s : State) (count : Nat) : State :=
  let s := if s.arbiter.queue.length < count then s.setPassWanted true else s
  passLoop (s.dueSlots.length + 1) s

end Sys2Proof.Machine
end

