-- ==== Sys2Proof/Machine/Events.lean ====
section
/-! DEFINITION. How an event is taken: no event while RESETN is low, the station transactions with the response they leave, and the events of the part
itself and of its instruments (R175 to R182, logs 4, 5, 11, 16). -/

namespace Sys2Proof.Machine

/-- What exec answers: always a next state here, for no command of the part stops it. -/
abbrev Result := Host.Outcome State Fault Refusal

/-- An answer with its payload. -/
def answered (s : State) (a : Answer) (payload : List Byte) : State × Response := (s, { status := a, payload := payload })

/-- A refusal, or an answer that returns nothing: no payload (R181). -/
def bare (s : State) (a : Answer) : State × Response := answered s a []

/-- An event begins: nothing is sent yet (log 11). No event is taken while RESETN is low (R24, log 4); a transaction's clocks then shift out 0x00 (R175). -/
def State.whenUp (s : State) (clocks : Nat) (f : State → State) : Result :=
  .next (if s.resetnLow then s.quiet.shiftOut none clocks else f s.quiet)

/-- An event of the part itself, of an instrument or of the pendant line: its effect, then the scheduler's passes (log 5). -/
def State.ownEvent (s : State) (f : State → State) : Result := s.whenUp 0 fun s => (f s).settle s.arbiter.queue.length

/-- The bytes a station command clocks in. -/
def clockedBytes (i : Instr) : List Byte := (transactionBytes i).getD []

/-- The clocks of a command's transaction: eight for each byte; an EMPTY_TRANSACTION carries its own, and what is no transaction has none (R176). -/
def clocksOf (i : Instr) : Nat :=
  match i with
  | .emptyTransaction n => n
  | i => 8 * (clockedBytes i).length

/-- A command's transaction is clocked (R176). -/
def State.transact (s : State) (i : Instr) : State := s.clock (clockedBytes i) (clocksOf i)

/-- A command transaction: its bytes are clocked, a pending response is discarded, the owning block takes the command, and its response is pending with
READY high, all in one event (R178, R180, R182). -/
def State.station (s : State) (i : Instr) (take : State → State × Response) : Result :=
  s.whenUp (clocksOf i) fun s =>
    let taken := take (s.transact i).dropResponse
    taken.1.respond taken.2

/-- What a command does to the queue and the records is followed by the scheduler's passes (R109, log 5). -/
def settled (take : State → State × Response) (s : State) : State × Response :=
  let taken := take s
  (taken.1.settle s.arbiter.queue.length, taken.2)

end Sys2Proof.Machine
end

