-- ==== Sys2Proof/Machine/StationLink.lean ====
section
/-! DEFINITION. The station transactions that no block takes (R176 to R178), and the RESET command, which every block takes (R185). -/

namespace Sys2Proof.Machine

/-- EMPTY_TRANSACTION: the fall of SCS empties the buffer and no complete byte follows; its clocks shift out the first bits of a pending response, which
stays (R176, log 16). -/
def execEmptyTransaction (clocks : Nat) (s : State) : Result := s.whenUp clocks (·.transact (.emptyTransaction clocks))

/-- A read at the rise of SCS: the response is consumed if all its bytes were shifted out (R177). -/
def State.endRead (s : State) (n : Nat) : State :=
  match s.link.response with
  | some r => if r.bytes.length ≤ n then s.dropResponse else s
  | none => s

/-- READ_TRANSACTION (R177). -/
def execReadTransaction (rest : List Byte) (s : State) : Result :=
  s.whenUp (clocksOf (.readTransaction rest)) fun s => (s.transact (.readTransaction rest)).endRead (rest.length + 1)

/-- BADFRAME: no block is reached (R178). -/
def execBadframe (bytes : List Byte) (s : State) : Result := s.station (.badframe bytes) fun s => bare s .badFrame

/-- UNKNOWN: no block is reached (R178). -/
def execUnknown (code : Byte) (payload : List Byte) (s : State) : Result :=
  s.station (.unknown code payload) fun s => bare s .unknown

/-! ### RESET (R185) -/

/-- What the RESET command leaves of the HOME record (R25). -/
def Record.afterReset (r : Record) : Record :=
  { r with
    state := .dormant, outcome := if r.state = .dormant then r.outcome else .parked
    fix := none, sequence := 0, fixPending := false, fixOverrun := false, motion := none, drift := .none, lastDeviation := none
    period := 0, missCount := 0, breaks := 0, searches := 0, ambiguities := 0, lockLatch := false, notices := 0 }

/-- What the RESET command leaves of a slot: HOME stays in slot 0, and a live record of another slot is vacated (R25). -/
def Slot.afterReset (i : Fin 48) (v : Slot) : Slot :=
  match v.record with
  | some r => if i = 0 then { v with record := some r.afterReset } else { generation := v.generation + 1, record := none }
  | none => v

/-- The table after the RESET command; the windows are kept (R25). -/
def Table.afterReset (t : Table) : Table := { t with slots := Vector.ofFn fun i => Slot.afterReset i t.slots[i.val] }

/-- The arbiter after the RESET command: its power-on condition but for the priority table (R102). -/
def Arbiter.afterReset (a : Arbiter) : Arbiter :=
  { a with queue := [], stack := [], grant := none, runMode := .parked, arrivalCounter := 0 }

/-- The notice unit after the RESET command, its line low; masks and master enable are kept (R156). -/
def NoticeUnit.afterReset (n : NoticeUnit) : NoticeUnit :=
  { n with device := 0, falseReturns := 0, rangeFailures := 0, frameRejects := 0, pendantErrors := 0, line := false }

/-- The sweep unit after the RESET command: a sweep in flight is abandoned (R174). -/
def SweepUnit.afterReset (w : SweepUnit) : SweepUnit :=
  match w.inFlight with
  | some sw => { inFlight := none, lastResult := some { cause := .abandoned, action := sw.action, acted := sw.acted, skipped := sw.skipped } }
  | none => w

/-- The drive request of PARK and of the RESET command: a MOVE to the HOME reference if present, a HALT if absent (R98, R137). -/
def State.driveHome (s : State) : State :=
  match (s.recordAt 0).bind (·.reference) with
  | some ref => s.sendMove ref.direction
  | none => s.sendHalt

/-- The RESET command, block by block (R185). -/
def State.takeReset (s : State) : State :=
  let s := (s.endPursuit true).setContext none
  State.driveHome { s with
    table := s.table.afterReset
    arbiter := s.arbiter.afterReset
    scheduler := { entries := [], frozen := true, passWanted := false }
    ports := { s.ports with outstanding := none }
    notices := s.notices.afterReset
    sweep := s.sweep.afterReset }

/-- RESET (R185). -/
def execReset (s : State) : Result := s.station .reset fun s => bare s.takeReset .ok

end Sys2Proof.Machine
end

