-- ==== Sys2Proof/Config.lean ====
section
/-! DEFINITION. What the manual leaves to the part: the byte codes of values that the table of 9.5 does not list. Each is a free value (log 7). -/

namespace Sys2Proof

/-- Log 7, DESIGN CHOICE, safe: the code of a drift state in READ of the Reference group is not given by 9.5. -/
opaque Config.driftCode : DriftState → Byte

/-- Log 7, DESIGN CHOICE, safe: the code of the run mode in BEAM-STATUS and DEVICE-STATUS is not given by 9.5. -/
opaque Config.runModeCode : RunMode → Byte

/-- Log 7, DESIGN CHOICE, safe: the code of a revisit entry's status in REVISIT-ENTRY is not given by 9.5. -/
opaque Config.revisitStatusCode : RevisitStatus → Byte

/-- Log 7, DESIGN CHOICE, safe: the code of IDLE (false) or IN FLIGHT (true) in SWEEP-STATUS is not given by 9.5. -/
opaque Config.sweepStateCode : Bool → Byte

/-- Log 7, DESIGN CHOICE, safe: the code of a sweep's end cause is not given by 9.5. -/
opaque Config.endCauseCode : EndCause → Byte

/-- Log 7, DESIGN CHOICE, safe: the code of a SCAN's result is not given by 9.5. -/
opaque Config.scanResultCode : ScanResult → Byte

/-- Log 7, DESIGN CHOICE, safe: the code by which NEXT-NOTICE says DEVICE, RECORD or NONE is not given by 9.5. -/
opaque Config.noticeSourceCode : NoticeSource → Byte

end Sys2Proof
end

