-- ==== Sys2Proof/Machine/Operands.lean ====
section
/-! DEFINITION. The operand forms of the requests: codes of values read and written (9.5), ranges of values (1.3, R27), handles (R2), conditions
(R158 to R160, R189), and the payloads that answers carry (R183, R187, R188, log 6). -/

namespace Sys2Proof.Machine

/-! ### Codes written into answers (9.5) -/

/-- The code of a state; VACANT is 0 (9.5). -/
def stateCode : Option RecState → Byte
  | none => 0#8
  | some .dormant => 1#8
  | some .queued => 2#8
  | some .suspended => 3#8
  | some (.active .slewing) => 4#8
  | some (.active .centring) => 5#8
  | some (.active .ranging) => 6#8
  | some (.active .locked) => 7#8
  | some (.active .coasting) => 8#8
  | some (.active .searching) => 9#8

/-- The code of an outcome (9.5). -/
def outcomeCode : EndOutcome → Byte
  | .none => 0#8 | .released => 1#8 | .done => 2#8 | .lost => 3#8 | .fault => 4#8 | .preempted => 5#8 | .dropped => 6#8 | .parked => 7#8

/-- The code of a kind (9.5). -/
def kindCode : Kind → Byte
  | .home => 0#8 | .roving => 1#8 | .nest => 2#8

/-- The code of an owner (9.5). -/
def ownerCode : Owner → Byte
  | .station => 0#8 | .pendant => 1#8

/-- The code of an origin (9.5). -/
def originCode : Origin → Byte
  | .station => 0#8 | .pendant => 1#8 | .revisit => 2#8 | .internal => 3#8

/-- The code of a direction of a walk (9.5). -/
def walkCode : WalkDirection → Byte
  | .up => 0#8 | .down => 1#8

/-- The code of a sweep action (9.5). -/
def actionCode : SweepAction → Byte
  | .release => 0#8 | .retire => 1#8 | .revisitOff => 2#8 | .holdOn => 3#8 | .holdOff => 4#8

/-- The code of a group (9.5). -/
def groupCode : Group → Byte
  | .identity => 0#8 | .fix => 1#8 | .motion => 2#8 | .reference => 3#8 | .parameters => 4#8 | .revisit => 5#8
  | .statistics => 6#8 | .status => 7#8

/-- A flag as a byte: 1 for on, set or present, 0 otherwise (R183, R190, log 6). -/
def flagByte (b : Bool) : Byte := if b then 1#8 else 0#8

/-! ### Codes read from requests (9.5); none for a code that names no defined value (R183) -/

/-- A kind's code read. -/
def kindOf (b : Byte) : Option Kind :=
  if b = 0#8 then some .home else if b = 1#8 then some .roving else if b = 2#8 then some .nest else none

/-- An origin's code read. -/
def originOf (b : Byte) : Option Origin :=
  if b = 0#8 then some .station else if b = 1#8 then some .pendant else if b = 2#8 then some .revisit
  else if b = 3#8 then some .internal else none

/-- A group's code read. -/
def groupOf (b : Byte) : Option Group :=
  if b = 0#8 then some .identity else if b = 1#8 then some .fix else if b = 2#8 then some .motion else if b = 3#8 then some .reference
  else if b = 4#8 then some .parameters else if b = 5#8 then some .revisit else if b = 6#8 then some .statistics
  else if b = 7#8 then some .status else none

/-- A direction's code read. -/
def walkOf (b : Byte) : Option WalkDirection := if b = 0#8 then some .up else if b = 1#8 then some .down else none

/-- A sweep action's code read. -/
def actionOf (b : Byte) : Option SweepAction :=
  if b = 0#8 then some .release else if b = 1#8 then some .retire else if b = 2#8 then some .revisitOff
  else if b = 3#8 then some .holdOn else if b = 4#8 then some .holdOff else none

/-- An outcome's code read. -/
def outcomeOf (b : Byte) : Option EndOutcome :=
  if b = 0#8 then some .none else if b = 1#8 then some .released else if b = 2#8 then some .done else if b = 3#8 then some .lost
  else if b = 4#8 then some .fault else if b = 5#8 then some .preempted else if b = 6#8 then some .dropped
  else if b = 7#8 then some .parked else none

/-- An on or off byte read: 1 is on, 0 is off (R190, log 8). -/
def onOffOf (b : Byte) : Option Bool := if b = 1#8 then some true else if b = 0#8 then some false else none

/-- The selector of WINDOWS read: 0 STATION, 1 PENDANT, 2 BOTH. DESIGN CHOICE (log 8): 9.5 gives no codes for it. -/
def selectorOf (b : Byte) : Option WindowSelector :=
  if b = 0#8 then some .station else if b = 1#8 then some .pendant else if b = 2#8 then some .both else none

/-- The slot a byte names, none outside 0 to 47 (R2). -/
def slotOf (b : Byte) : Option (Fin 48) := if h : b.toNat < 48 then some ⟨b.toNat, h⟩ else none

/-- The class a byte names, none above 7 (R27). -/
def classOfByte (b : Byte) : Option (Fin 8) := if h : b.toNat < 8 then some ⟨b.toNat, h⟩ else none

/-! ### Handles (R2, R9) -/

/-- The checks every request that names a handle begins with: RANGE, VACANT, STALE (R2). DEDUCED (log 23): of a READ under a handle whose record a
RETIRE has ended R151 says STALE; while the slot is empty R2 gives VACANT, and R2 is followed. -/
def State.lookup (s : State) (slot gen : Byte) : Except Answer (Handle × Record) :=
  match slotOf slot with
  | none => .error .range
  | some i =>
    match (s.slotAt i).record with
    | none => .error .vacant
    | some r => if (s.slotAt i).generation = gen then .ok ({ slot := i, generation := gen }, r) else .error .stale

/-! ### Ranges of values (1.3, R27, R84) -/

/-- An azimuth and an elevation are in the ranges of 1.3. -/
def directionInRange (azimuth elevation : Int) : Bool := Direction.inLimits { azimuth := azimuth, elevation := elevation }

/-- The values of the Parameters group are in the ranges of 1.3. -/
def Parameters.inRange (p : Parameters) : Bool :=
  decide (p.window ≤ 50000) && decide (p.coastTime ≤ 2000) && decide (p.fixInterval ≤ 10000)
    && decide (1 ≤ p.searchRings) && decide (p.searchRings ≤ 12) && decide (1000 ≤ p.searchLimit) && decide (p.searchLimit ≤ 60000)

/-- The five values of the full form of SET Reference are in the ranges of 1.3. -/
def referenceInRange (ref : Reference) (angleTolerance rangeTolerance : Nat) : Bool :=
  ref.direction.inLimits && decide (ref.range ≤ 80000000) && decide (angleTolerance ≤ 50000) && decide (rangeTolerance ≤ 5000000)

/-- The six figures of a class entry are in the ranges of R27. -/
def ClassEntry.inRange (c : ClassEntry) : Bool :=
  decide (c.sphereOffset ≤ 50000) && decide (200 ≤ c.captureRadius) && decide (c.captureRadius ≤ 20000)
    && decide (20 ≤ c.centreRadius) && decide (c.centreRadius ≤ 2000) && decide (1 ≤ c.minIntensity) && decide (c.minIntensity ≤ 1023)
    && decide (10 ≤ c.rangeAgreement) && decide (c.rangeAgreement ≤ 5000) && decide (200 ≤ c.ringStep) && decide (c.ringStep ≤ 10000)

/-- A revisit period is 0, or 10 to 3,600 s (R105). -/
def periodInRange (p : Nat) : Bool := decide (p = 0) || (decide (10 ≤ p) && decide (p ≤ 3600))

/-- A base and a length are an allocation window (R8, R19). -/
def AllocWindow.inRange (w : AllocWindow) : Bool :=
  decide (1 ≤ w.base) && decide (w.base ≤ 47) && decide (1 ≤ w.length) && decide (w.length ≤ 47) && decide (w.base + w.length ≤ 48)

/-- A slot lies in an allocation window (R8). -/
def AllocWindow.contains (w : AllocWindow) (i : Fin 48) : Bool := decide (w.base ≤ i.val) && decide (i.val < w.base + w.length)

/-! ### Conditions (R158 to R160, R189) -/

/-- A condition read from its bytes; none where a bit or an outcome code names no defined value (R160, R189). -/
def conditionOf (c : ConditionBytes) : Option Condition :=
  if 1024 ≤ c.states.toNat ∨ 8 ≤ c.kinds.toNat ∨ 4 ≤ c.owners.toNat ∨ 8 ≤ c.qualifiers.toNat then none
  else
    let fields (o : Option EndOutcome) : Condition :=
      { states := c.states.setWidth 10, kinds := c.kinds.setWidth 3, owners := c.owners.setWidth 2
        pendingOnly := c.qualifiers.getLsbD 0, outcome := o, driftOut := c.qualifiers.getLsbD 1 }
    if c.qualifiers.getLsbD 2 then
      match outcomeOf c.outcome with
      | some o => some (fields (some o))
      | none => none
    else some (fields none)

/-- A live record matches a condition in all six parts (R158). -/
def Condition.matchesRecord (c : Condition) (r : Record) : Bool :=
  c.states.getLsbD (stateCode (some r.state)).toNat && c.kinds.getLsbD (kindCode r.kind).toNat
    && c.owners.getLsbD (ownerCode r.owner).toNat && (!c.pendingOnly || decide (r.notices ≠ 0#8))
    && (match c.outcome with
        | some o => decide (r.outcome = o)
        | none => true)
    && (!c.driftOut || decide (r.drift = .outside))

/-- A VACANT slot matches when VACANT is in the state set and no qualifier is present (R159). -/
def Condition.matchesVacant (c : Condition) : Bool :=
  c.states.getLsbD 0 && !c.pendingOnly && c.outcome.isNone && !c.driftOut

/-- The slot is judged against a condition as the table stands (R158, R159). -/
def State.slotMatches (s : State) (c : Condition) (i : Fin 48) : Bool :=
  match s.recordAt i with
  | some r => c.matchesRecord r
  | none => c.matchesVacant

/-! ### Values as payload bytes (R183) -/

/-- A value of 0 to 255. -/
def nat1 (n : Nat) : List Byte := [BitVec.ofNat 8 n]

/-- A value in 2 bytes. -/
def nat2 (n : Nat) : List Byte := bytes2 (BitVec.ofNat 16 n)

/-- A value in 4 bytes. -/
def nat4 (n : Nat) : List Byte := bytes4 (BitVec.ofNat 32 n)

/-- A signed value in 4 bytes, two's complement. -/
def int4 (n : Int) : List Byte := bytes4 (BitVec.ofInt 32 n)

/-- A direction: azimuth, then elevation (R183). -/
def directionBytes (d : Direction) : List Byte := int4 d.azimuth ++ int4 d.elevation

/-- A handle: slot, then generation (R183). -/
def handleBytes (h : Handle) : List Byte := [BitVec.ofNat 8 h.slot.val, h.generation]

/-- Bit n of a flag byte, set or clear. -/
def flagBit (n : Nat) (b : Bool) : Byte := if b then 1#8 <<< n else 0#8

/-! ### The groups READ answers (R12, R183, R187, R188); those without a picture in 9.5 follow log 6 -/

/-- READ of the Fix group (R187). -/
def fixPayload (h : Handle) (r : Record) : List Byte :=
  let near := r.fix.bind (·.near)
  let mark := r.fix.bind (·.mark)
  handleBytes h ++ [groupCode .fix]
    ++ [flagBit 0 r.fix.isSome ||| flagBit 1 near.isSome ||| flagBit 2 mark.isSome ||| flagBit 3 r.fixPending ||| flagBit 4 r.fixOverrun]
    ++ (match r.fix with
        | some f => directionBytes f.direction ++ nat4 f.range ++ bytes6 f.stamp ++ nat2 f.quality
        | none => List.replicate 20 0#8)
    ++ bytes2 r.sequence ++ nat1 ((near.map (·.val)).getD 0) ++ [mark.getD 0#8]

/-- READ of the Status group (R188). -/
def statusPayload (h : Handle) (r : Record) : List Byte :=
  handleBytes h ++ [groupCode .status, stateCode (some r.state), outcomeCode r.outcome, flagByte r.lockLatch, r.notices]

/-- READ of the Identity group (1.3, log 6). -/
def identityPayload (h : Handle) (r : Record) : List Byte :=
  handleBytes h ++ [groupCode .identity, kindCode r.kind, BitVec.ofNat 8 r.cls.val, ownerCode r.owner, stateCode (some r.state),
    outcomeCode r.outcome, flagByte r.autoResume, flagByte r.hold]

/-- READ of the Motion group (1.3, log 6). -/
def motionPayload (h : Handle) (r : Record) : List Byte :=
  handleBytes h ++ [groupCode .motion, flagBit 0 r.motion.isSome]
    ++ (match r.motion with
        | some m => int4 m.azimuthRate ++ int4 m.elevationRate ++ int4 m.rangeRate
        | none => List.replicate 12 0#8)

/-- READ of the Reference group (1.3, log 6, log 7). -/
def referencePayload (h : Handle) (r : Record) : List Byte :=
  handleBytes h ++ [groupCode .reference, flagBit 0 r.reference.isSome ||| flagBit 1 r.lastDeviation.isSome]
    ++ (match r.reference with
        | some ref => directionBytes ref.direction ++ nat4 ref.range
        | none => List.replicate 12 0#8)
    ++ nat2 r.angleTolerance ++ nat4 r.rangeTolerance ++ [Config.driftCode r.drift]
    ++ (match r.lastDeviation with
        | some d => int4 d.azimuth ++ int4 d.elevation ++ int4 d.range
        | none => List.replicate 12 0#8)

/-- READ of the Parameters group (1.3, log 6). -/
def parametersPayload (h : Handle) (r : Record) : List Byte :=
  handleBytes h ++ [groupCode .parameters] ++ nat2 r.params.window ++ nat2 r.params.coastTime ++ nat2 r.params.fixInterval
    ++ nat1 r.params.searchRings ++ nat2 r.params.searchLimit

/-- READ of the Revisit group: the due time is shown as reported time (R4, R141, log 6). -/
def revisitPayload (h : Handle) (r : Record) (shownDue : Option Time) : List Byte :=
  handleBytes h ++ [groupCode .revisit, flagBit 0 shownDue.isSome] ++ nat2 r.period ++ bytes6 (shownDue.getD 0#48) ++ nat1 r.missCount

/-- READ of the Statistics group (1.3, log 6). -/
def statisticsPayload (h : Handle) (r : Record) : List Byte :=
  handleBytes h ++ [groupCode .statistics] ++ nat1 r.breaks ++ nat1 r.searches ++ nat1 r.ambiguities

/-- The six figures of a class entry, 2 bytes each (R27, R29, R183). -/
def classPayload (c : ClassEntry) : List Byte :=
  nat2 c.sphereOffset ++ nat2 c.captureRadius ++ nat2 c.centreRadius ++ nat2 c.minIntensity ++ nat2 c.rangeAgreement ++ nat2 c.ringStep

end Sys2Proof.Machine
end

