-- ==== Sys2Proof/Machine/TableRequests.lean ====
section
/-! DEFINITION. The table requests (1.7): CREATE, RETIRE, READ, SET, CHANGE-KIND, TAKE, GIVE and WINDOWS, each checked in the order of R9. -/

namespace Sys2Proof.Machine

/-! ### Handles and owners (R2, R6, R9) -/

/-- The handle checks, then OWNER: the station changes STATION-owned records only (R6). -/
def State.lookupOwned (s : State) (slot gen : Byte) : Except Answer (Handle × Record) :=
  match s.lookup slot gen with
  | .error a => .error a
  | .ok (h, r) => if r.owner = .pendant then .error .owner else .ok (h, r)

/-- A request on a live record: refused by its handle checks, or taken with the record named. -/
def State.onRecord (s : State) (found : Except Answer (Handle × Record)) (take : Handle → Record → State × Response) : State × Response :=
  match found with
  | .error a => bare s a
  | .ok (h, r) => take h r

/-- The record is in an active state (00_scope.md Terms). -/
def Record.isActive (r : Record) : Bool :=
  match r.state with
  | .active _ => true
  | _ => false

/-! ### CREATE (R10) -/

/-- The lowest-numbered VACANT slot inside a window (R8). -/
def State.lowestVacant (s : State) (w : AllocWindow) : Option (Fin 48) :=
  allSlots.find? fun i => w.contains i && (s.recordAt i).isNone

/-- A record as CREATE makes it (R10, 1.3). -/
def Record.created (kind : Kind) (cls : Fin 8) (owner : Owner) : Record :=
  { kind := kind, cls := cls, owner := owner, state := .dormant, outcome := .none, autoResume := decide (kind = .roving), hold := false
    fix := none, sequence := 0, fixPending := false, fixOverrun := false, motion := none, reference := none
    angleTolerance := 100, rangeTolerance := 200, drift := .none, lastDeviation := none
    params := { window := 0, coastTime := 300, fixInterval := 0, searchRings := 6, searchLimit := 15000 }
    period := 0, missCount := 0, breaks := 0, searches := 0, ambiguities := 0, lockLatch := false, notices := 0 }

/-- A record made in the lowest VACANT slot of a window, with the slot's generation; none where the window is full (R1, R10). -/
def State.createIn (s : State) (w : AllocWindow) (kind : Kind) (cls : Fin 8) (owner : Owner) : Option (State × Handle) :=
  match s.lowestVacant w with
  | some i => some (s.setSlot i { generation := (s.slotAt i).generation, record := some (Record.created kind cls owner) }, s.handleOf i)
  | none => none

/-- CREATE: HOME, then RANGE, then FULL (R9, R10). -/
def takeCreate (kind cls : Byte) (s : State) : State × Response :=
  match kindOf kind, classOfByte cls with
  | some .home, _ => bare s .home
  | some k, some c =>
    match s.createIn s.table.stationWindow k c .station with
    | some (t, h) => answered t .ok (handleBytes h)
    | none => bare s .full
  | _, _ => bare s .range

/-- CREATE (R10). -/
def execCreate (kind cls : Byte) (s : State) : Result := s.station (.create kind cls) (takeCreate kind cls)

/-! ### RETIRE (R11) -/

/-- RETIRE: the handle, OWNER and HOME, then the record's end of life (R11). -/
def takeRetire (slot gen : Byte) (s : State) : State × Response :=
  s.onRecord (s.lookupOwned slot gen) fun h r =>
    let t := s.retireRecord h r
    bare t.1 t.2

/-- RETIRE (R11). -/
def execRetire (slot gen : Byte) (s : State) : Result := s.station (.retire slot gen) (settled (takeRetire slot gen))

/-! ### READ (R12) -/

/-- The payload of a group (R12, R187, R188). -/
def State.groupPayload (s : State) (g : Group) (h : Handle) (r : Record) : List Byte :=
  match g with
  | .identity => identityPayload h r
  | .fix => fixPayload h r
  | .motion => motionPayload h r
  | .reference => referencePayload h r
  | .parameters => parametersPayload h r
  | .revisit => revisitPayload h r (s.shownDue h.slot)
  | .statistics => statisticsPayload h r
  | .status => statusPayload h r

/-- A record after a READ of a group (R12, R22, R23). -/
def Record.afterRead (r : Record) (g : Group) : Record :=
  match g with
  | .fix => { r with fixPending := false, fixOverrun := false }
  | .statistics => { r with breaks := 0, searches := 0, ambiguities := 0 }
  | .status => { r with lockLatch := decide (r.state = .active .locked) }
  | _ => r

/-- READ: an undefined group is RANGE at check 1 (R9, R12). -/
def takeRead (slot gen group : Byte) (s : State) : State × Response :=
  match groupOf group with
  | none => bare s .range
  | some g => s.onRecord (s.lookup slot gen) fun h r => answered (s.modifyRecord h (·.afterRead g)) .ok (s.groupPayload g h r)

/-- READ (R12). -/
def execRead (slot gen group : Byte) (s : State) : Result := s.station (.read slot gen group) (takeRead slot gen group)

/-! ### SET (R13, R14, R15) -/

/-- A SET whose length does not fit its selector is RANGE (R184, log 9). -/
def withSelector (s : State) (selector wanted : Byte) (found : Except Answer (Handle × Record)) (take : Handle → Record → State × Response) :
    State × Response :=
  if selector = wanted then s.onRecord found take else bare s .range

/-- The five values of SET Parameters. -/
def parametersOf (window coastTime fixInterval : BitVec 16) (searchRings : Byte) (searchLimit : BitVec 16) : Parameters :=
  { window := window.toNat, coastTime := coastTime.toNat, fixInterval := fixInterval.toNat, searchRings := searchRings.toNat
    searchLimit := searchLimit.toNat }

/-- SET of the Parameters group of a live record: BUSY, RANGE, OVERLAP, ALREADY (R13). -/
def State.setParametersOf (s : State) (h : Handle) (r : Record) (p : Parameters) : State × Answer :=
  let t := s.modifyRecord h fun r => { r with params := p }
  if p.window ≠ r.params.window ∧ r.isActive = true then (s, .busy)
  else if p.inRange = false then (s, .range)
  else if p.window ≠ r.params.window ∧ r.position.isSome = true ∧ windowTestFails s t h.slot = true then (s, .overlap)
  else if p = r.params then (s, .already)
  else (t, .ok)

/-- SET of the Parameters group (R13). -/
def takeSetParameters (slot gen selector : Byte) (window coastTime fixInterval : BitVec 16) (searchRings : Byte) (searchLimit : BitVec 16)
    (s : State) : State × Response :=
  withSelector s selector 0#8 (s.lookupOwned slot gen) fun h r =>
    let t := s.setParametersOf h r (parametersOf window coastTime fixInterval searchRings searchLimit)
    bare t.1 t.2

/-- SET_PARAMETERS (R13). -/
def execSetParameters (slot gen selector : Byte) (window coastTime fixInterval : BitVec 16) (searchRings : Byte) (searchLimit : BitVec 16)
    (s : State) : Result :=
  s.station (.setParameters slot gen selector window coastTime fixInterval searchRings searchLimit)
    (takeSetParameters slot gen selector window coastTime fixInterval searchRings searchLimit)

/-- The reference the full form of SET Reference carries. -/
def referenceOf (azimuth elevation range : BitVec 32) : Reference :=
  { direction := { azimuth := azimuth.toInt, elevation := elevation.toInt }, range := range.toNat }

/-- A record with its reference replaced: the drift watch starts afresh (R14). -/
def Record.withReference (r : Record) (ref : Option Reference) : Record :=
  { r with reference := ref, drift := .none, lastDeviation := none }

/-- The full form of SET Reference on a live record: KIND, BUSY, RANGE, OVERLAP (R14). -/
def State.setReferenceOf (s : State) (h : Handle) (r : Record) (ref : Reference) (angleTolerance rangeTolerance : Nat) : State × Answer :=
  let t := s.modifyRecord h fun r =>
    { r.withReference (some ref) with angleTolerance := angleTolerance, rangeTolerance := rangeTolerance }
  if r.kind = .roving then (s, .kind)
  else if r.isActive then (s, .busy)
  else if referenceInRange ref angleTolerance rangeTolerance = false then (s, .range)
  else if windowTestFails s t h.slot then (s, .overlap)
  else (t, .ok)

/-- The full form of SET of the Reference group (R14). -/
def takeSetReference (slot gen selector : Byte) (azimuth elevation range : BitVec 32) (angleTolerance : BitVec 16) (rangeTolerance : BitVec 32)
    (s : State) : State × Response :=
  withSelector s selector 1#8 (s.lookupOwned slot gen) fun h r =>
    let t := s.setReferenceOf h r (referenceOf azimuth elevation range) angleTolerance.toNat rangeTolerance.toNat
    bare t.1 t.2

/-- SET_REFERENCE (R14). -/
def execSetReference (slot gen selector : Byte) (azimuth elevation range : BitVec 32) (angleTolerance : BitVec 16) (rangeTolerance : BitVec 32)
    (s : State) : Result :=
  s.station (.setReference slot gen selector azimuth elevation range angleTolerance rangeTolerance)
    (takeSetReference slot gen selector azimuth elevation range angleTolerance rangeTolerance)

/-- The removal form of SET Reference on a live record: KIND, BUSY, OVERLAP (R14). -/
def State.removeReferenceOf (s : State) (h : Handle) (r : Record) : State × Answer :=
  let t := s.modifyRecord h (·.withReference none)
  if r.kind = .roving then (s, .kind)
  else if r.isActive then (s, .busy)
  else if windowTestFails s t h.slot then (s, .overlap)
  else (t, .ok)

/-- The removal form of SET of the Reference group (R14). -/
def takeSetReferenceRemoval (slot gen selector : Byte) (s : State) : State × Response :=
  withSelector s selector 1#8 (s.lookupOwned slot gen) fun h r =>
    let t := s.removeReferenceOf h r
    bare t.1 t.2

/-- SET_REFERENCE_REMOVAL (R14). -/
def execSetReferenceRemoval (slot gen selector : Byte) (s : State) : Result :=
  s.station (.setReferenceRemoval slot gen selector) (takeSetReferenceRemoval slot gen selector)

/-- SET of hold on a live record, as the station, a sweep or the pendant asks (R15). -/
def State.setHoldOf (s : State) (h : Handle) (r : Record) (value : Bool) : State × Answer :=
  if r.hold = value then (s, .already) else (s.modifyRecord h fun r => { r with hold := value }, .ok)

/-- SET of hold; a value that is neither on nor off is RANGE (R15, R183). -/
def takeSetHold (slot gen selector value : Byte) (s : State) : State × Response :=
  withSelector s selector 2#8 (s.lookupOwned slot gen) fun h r =>
    match onOffOf value with
    | none => bare s .range
    | some v =>
      let t := s.setHoldOf h r v
      bare t.1 t.2

/-- SET_HOLD (R15). -/
def execSetHold (slot gen selector value : Byte) (s : State) : Result :=
  s.station (.setHold slot gen selector value) (takeSetHold slot gen selector value)

/-- SET of auto-resume (R15). -/
def takeSetAutoResume (slot gen value : Byte) (s : State) : State × Response :=
  s.onRecord (s.lookupOwned slot gen) fun h r =>
    match onOffOf value with
    | none => bare s .range
    | some v => if r.autoResume = v then bare s .already else bare (s.modifyRecord h fun r => { r with autoResume := v }) .ok

/-- SET_AUTO_RESUME (R15). -/
def execSetAutoResume (slot gen value : Byte) (s : State) : Result :=
  s.station (.setAutoResume slot gen value) (takeSetAutoResume slot gen value)

/-! ### CHANGE-KIND (R16) -/

/-- A record changed to a kind: the effects of the two changes (R16). -/
def Record.changedTo (r : Record) (k : Kind) : Record :=
  match k with
  | .roving => { r.withReference none with kind := .roving, period := 0, missCount := 0 }
  | _ => { r with kind := k, motion := none }

/-- CHANGE-KIND of a live record to a kind other than HOME: KIND, BUSY, OVERLAP, ALREADY (R16). -/
def State.changeKindOf (s : State) (h : Handle) (r : Record) (expected wanted : Kind) : State × Answer :=
  let t := s.modifyRecord h (·.changedTo wanted)
  if h.slot = 0 ∨ wanted = .home then (s, .home)
  else if r.kind ≠ expected then (s, .kind)
  else if r.state ≠ .dormant then (s, .busy)
  else if wanted = r.kind then (s, .already)
  else if wanted = .roving then (t.removeEntry h.slot, .ok)
  else if r.fix.isSome = true ∧ windowTestFails s t h.slot = true then (s, .overlap)
  else (t, .ok)

/-- CHANGE-KIND; an undefined kind is RANGE at check 1 (R9, R16). -/
def takeChangeKind (slot gen expected wanted : Byte) (s : State) : State × Response :=
  match kindOf expected, kindOf wanted with
  | some e, some w =>
    s.onRecord (s.lookupOwned slot gen) fun h r =>
      let t := s.changeKindOf h r e w
      bare t.1 t.2
  | _, _ => bare s .range

/-- CHANGE_KIND (R16). -/
def execChangeKind (slot gen expected wanted : Byte) (s : State) : Result :=
  s.station (.changeKind slot gen expected wanted) (takeChangeKind slot gen expected wanted)

/-! ### TAKE and GIVE (R17, R18) -/

/-- TAKE (R17). -/
def takeTake (slot gen : Byte) (s : State) : State × Response :=
  s.onRecord (s.lookup slot gen) fun h r =>
    if r.owner = .station then bare s .already else bare (s.modifyRecord h fun r => { r with owner := .station }) .ok

/-- TAKE (R17). -/
def execTake (slot gen : Byte) (s : State) : Result := s.station (.take slot gen) (takeTake slot gen)

/-- GIVE: HOME, RANGE outside the pendant window, ALREADY (R9, R18). -/
def takeGive (slot gen : Byte) (s : State) : State × Response :=
  s.onRecord (s.lookup slot gen) fun h r =>
    if h.slot = 0 then bare s .home
    else if s.table.pendantWindow.contains h.slot = false then bare s .range
    else if r.owner = .pendant then bare s .already
    else bare (s.modifyRecord h fun r => { r with owner := .pendant }) .ok

/-- GIVE (R18). -/
def execGive (slot gen : Byte) (s : State) : Result := s.station (.give slot gen) (takeGive slot gen)

/-! ### WINDOWS (R19) -/

/-- The slot holds a PENDANT-owned record that a window leaves outside (R19). -/
def State.leftOutside (s : State) (w : AllocWindow) (i : Fin 48) : Bool :=
  match s.recordAt i with
  | some r => decide (r.owner = .pendant) && !w.contains i
  | none => false

/-- A slot whose record, if any, is STATION-owned. -/
def Slot.toStation (v : Slot) : Slot := { v with record := v.record.map fun r => { r with owner := .station } }

/-- Every PENDANT-owned record outside a window becomes STATION-owned (R19). -/
def State.transferOutside (s : State) (w : AllocWindow) : State :=
  { s with table := { s.table with
      slots := Vector.ofFn fun i => if s.leftOutside w i then (s.slotAt i).toStation else s.slotAt i } }

/-- Every reported generation becomes absent (R196). -/
def State.forgetReported (s : State) : State := { s with pendant := { s.pendant with reported := Vector.replicate 48 none } }

/-- A new pendant window with its effects on the PENDANT-owned records it leaves outside (R19, R96, R196). -/
def State.movePendantWindow (s : State) (w : AllocWindow) : State :=
  let t := ((s.transferOutside w).removePendantEntries fun h => s.leftOutside w h.slot).forgetReported
  { t with table := { t.table with pendantWindow := w } }

/-- Whether a selector selects the station window. -/
def selectsStation : WindowSelector → Bool
  | .station | .both => true
  | .pendant => false

/-- Whether a selector selects the pendant window. -/
def selectsPendant : WindowSelector → Bool
  | .pendant | .both => true
  | .station => false

/-- A window as a WINDOWS request carries it. -/
def windowOf (base length : Byte) : AllocWindow := { base := base.toNat, length := length.toNat }

/-- WINDOWS with a defined selector (R19): st and pd are the windows asked for, the current ones where not selected. -/
def State.setWindows (s : State) (st pd : AllocWindow) : State :=
  let t : State := { s with table := { s.table with stationWindow := st } }
  if pd = s.table.pendantWindow then t else t.movePendantWindow pd

/-- WINDOWS (R19, R184). -/
def takeWindows (selector stationBase stationLength pendantBase pendantLength : Byte) (s : State) : State × Response :=
  match selectorOf selector with
  | none => bare s .range
  | some x =>
    let st := if selectsStation x then windowOf stationBase stationLength else s.table.stationWindow
    let pd := if selectsPendant x then windowOf pendantBase pendantLength else s.table.pendantWindow
    if (selectsStation x = true ∧ st.inRange = false) ∨ (selectsPendant x = true ∧ pd.inRange = false) then bare s .range
    else if st = s.table.stationWindow ∧ pd = s.table.pendantWindow then bare s .already
    else bare (s.setWindows st pd) .ok

/-- WINDOWS (R19). -/
def execWindows (selector stationBase stationLength pendantBase pendantLength : Byte) (s : State) : Result :=
  s.station (.windows selector stationBase stationLength pendantBase pendantLength)
    (settled (takeWindows selector stationBase stationLength pendantBase pendantLength))

end Sys2Proof.Machine
end

