-- ==== Sys2Proof/Machine/Beam.lean ====
section
/-! DEFINITION. The beam arbiter's commands: PURSUE, RELEASE, PRIORITY, PARK, UNPARK and BEAM-STATUS (chapter 4). -/

namespace Sys2Proof.Machine

/-! ### PURSUE (R84) -/

/-- The aim a PURSUE carries, if its flag byte says so (R184, R190). -/
def aimOf (flags : Byte) (azimuth elevation : BitVec 32) : Option Direction :=
  if flags.getLsbD 1 then some { azimuth := azimuth.toInt, elevation := elevation.toInt } else none

/-- Check 5 of R84, and the bits of the flag byte that name nothing (R183). -/
def pursueInRange (flags priority : Byte) (aim : Option Direction) : Bool :=
  decide (flags.toNat < 4) && (!flags.getLsbD 0 || decide (priority.toNat ≤ 6))
    && (match aim with
        | some d => d.inLimits
        | none => true)

/-- The priority of a station PURSUE: the explicit one, else the table's (R82). -/
def State.pursuePriority (s : State) (flags priority : Byte) : Nat :=
  if flags.getLsbD 0 then priority.toNat else s.arbiter.priorities.value .station

/-- PURSUE from the station (R84). -/
def takePursue (slot gen flags priority : Byte) (azimuth elevation : BitVec 32) (s : State) : State × Response :=
  s.onRecord (s.lookup slot gen) fun h r =>
    if s.arbiter.runMode = .parked then bare s .parked
    else if pursueInRange flags priority (aimOf flags azimuth elevation) = false then bare s .range
    else
      let t := s.pursueRecord h r .station (s.pursuePriority flags priority) (aimOf flags azimuth elevation)
      bare t.1 t.2

/-- PURSUE (R84). -/
def execPursue (slot gen flags priority : Byte) (azimuth elevation : BitVec 32) (s : State) : Result :=
  s.station (.pursue slot gen flags priority azimuth elevation) (settled (takePursue slot gen flags priority azimuth elevation))

/-! ### RELEASE (R93) -/

/-- RELEASE from the station (R93). -/
def takeRelease (slot gen : Byte) (s : State) : State × Response :=
  s.onRecord (s.lookup slot gen) fun h r =>
    let t := s.releaseRecord h r
    bare t.1 t.2

/-- RELEASE (R93). -/
def execRelease (slot gen : Byte) (s : State) : Result := s.station (.release slot gen) (settled (takeRelease slot gen))

/-! ### PRIORITY (R83) -/

/-- PRIORITY, read form; the fixed value of INTERNAL is read too (R82, R83, log 22). -/
def takePriorityRead (origin : Byte) (s : State) : State × Response :=
  match originOf origin with
  | some o => answered s .ok (nat1 (s.arbiter.priorities.value o))
  | none => bare s .range

/-- PRIORITY_READ (R83). -/
def execPriorityRead (origin : Byte) (s : State) : Result := s.station (.priorityRead origin) (takePriorityRead origin)

/-- The priority table with one value written; INTERNAL is fixed (R82). -/
def PriorityTable.write (p : PriorityTable) (o : Origin) (v : Nat) : PriorityTable :=
  match o with
  | .station => { p with station := v }
  | .pendant => { p with pendant := v }
  | .revisit => { p with revisit := v }
  | .internal => p

/-- The priority table rewritten. -/
def State.setPriorities (s : State) (p : PriorityTable) : State := { s with arbiter := { s.arbiter with priorities := p } }

/-- PRIORITY, write form (R83). -/
def takePriorityWrite (origin value : Byte) (s : State) : State × Response :=
  match originOf origin with
  | none | some .internal => bare s .range
  | some o =>
    if 6 < value.toNat then bare s .range
    else if value.toNat = s.arbiter.priorities.value o then bare s .already
    else bare (s.setPriorities (s.arbiter.priorities.write o value.toNat)) .ok

/-- PRIORITY_WRITE (R83). -/
def execPriorityWrite (origin value : Byte) (s : State) : Result := s.station (.priorityWrite origin value) (takePriorityWrite origin value)

/-! ### PARK and UNPARK (R98, R100) -/

/-- Step 1 of PARK: a granted record's pursuit ends with outcome PARKED, and the end is reported (R98). -/
def State.parkGrant (s : State) : State :=
  match s.arbiter.grant with
  | some g => (((s.endPursuit true).setGrant none).toDormant g.handle .parked).reportEnd g .parked
  | none => s

/-- Steps 2 and 3 of PARK: the collections are emptied, their records DORMANT with outcome PARKED, and the arrival counter 0 (R98). -/
def State.parkCollections (s : State) : State :=
  let requests := s.arbiter.queue.map (·.request) ++ s.arbiter.stack
  ((requests.foldl (fun s q => s.toDormant q.handle .parked) ((s.setQueue []).setStack [])).setArrivalCounter 0)

/-- Step 5 of PARK: PARKED, and the scheduler frozen with its OFFERED entries DUE (R98, R116). -/
def State.freeze (s : State) : State := ((s.setRunMode .parked).offeredBecomeDue).setFrozen true

/-- PARK taken while RUNNING (R98). -/
def State.parkFromRunning (s : State) : State := s.parkGrant.parkCollections.driveHome.freeze

/-- PARK (R98). -/
def takePark (s : State) : State × Response :=
  if s.arbiter.runMode = .parked then bare s .already else bare s.parkFromRunning .ok

/-- PARK (R98). -/
def execPark (s : State) : Result := s.station .park (settled takePark)

/-- The home check's request (R100). -/
def State.homeCheck (s : State) : Request := { handle := s.handleOf 0, origin := .internal, priority := 7, aim := none }

/-- Step 2 of UNPARK: the home check is entered if the HOME record has a reference (R100). -/
def State.enterHomeCheck (s : State) : State :=
  if ((s.recordAt 0).bind (·.reference)).isSome then s.enqueue s.homeCheck else s

/-- UNPARK taken while PARKED: RUNNING, the home check and its grant, then the scheduler released for a pass (R100, R116). -/
def State.unparkFromParked (s : State) : State :=
  ((((s.setRunMode .running).enterHomeCheck).select false).setFrozen false).setPassWanted true

/-- UNPARK (R100). -/
def takeUnpark (s : State) : State × Response :=
  if s.arbiter.runMode = .running then bare s .already else bare s.unparkFromParked .ok

/-- UNPARK (R100). -/
def execUnpark (s : State) : Result := s.station .unpark (settled takeUnpark)

/-! ### BEAM-STATUS (R101) -/

/-- The state of a granted record, as a payload byte. -/
def State.stateByte (s : State) (h : Handle) : Byte := stateCode ((s.live h).map (·.state))

/-- The grant as BEAM-STATUS and DEVICE-STATUS carry it: a presence byte, then handle, origin, priority and state (R101, R154, log 6). -/
def State.grantBytes (s : State) : List Byte :=
  match s.arbiter.grant with
  | some g => [flagByte true] ++ handleBytes g.handle ++ [originCode g.origin] ++ nat1 g.priority ++ [s.stateByte g.handle]
  | none => [flagByte false] ++ List.replicate 5 0#8

/-- The queue in the order selection would take it (R101). -/
def selectionOrder : (fuel : Nat) → List QueueEntry → List QueueEntry
  | 0, _ => []
  | n + 1, q =>
    match bestEntry q with
    | some e => e :: selectionOrder n (withoutQueued e.request.handle.slot q)
    | none => []

/-- A queue entry as BEAM-STATUS carries it. -/
def queueEntryBytes (e : QueueEntry) : List Byte :=
  handleBytes e.request.handle ++ [originCode e.request.origin] ++ nat1 e.request.priority ++ nat2 e.arrival
    ++ [flagByte e.request.aim.isSome]

/-- A stack entry as BEAM-STATUS carries it. -/
def stackEntryBytes (q : Request) : List Byte := handleBytes q.handle ++ [originCode q.origin] ++ nat1 q.priority ++ [flagByte q.aim.isSome]

/-- The priority table as BEAM-STATUS carries it, by origin code. -/
def PriorityTable.bytes (p : PriorityTable) : List Byte := nat1 p.station ++ nat1 p.pendant ++ nat1 p.revisit ++ nat1 (p.value .internal)

/-- BEAM-STATUS's payload (R101, log 6). -/
def State.beamStatusPayload (s : State) : List Byte :=
  [Config.runModeCode s.arbiter.runMode] ++ s.grantBytes
    ++ nat1 s.arbiter.queue.length ++ (selectionOrder s.arbiter.queue.length s.arbiter.queue).flatMap queueEntryBytes
    ++ nat1 s.arbiter.stack.length ++ s.arbiter.stack.flatMap stackEntryBytes
    ++ s.arbiter.priorities.bytes

/-- BEAM_STATUS (R101). -/
def execBeamStatus (s : State) : Result := s.station .beamStatus fun s => answered s .ok s.beamStatusPayload

end Sys2Proof.Machine
end

