-- ==== Sys2Proof/Machine/ClassRequests.lean ====
section
/-! DEFINITION. The class table's requests: CLASS-ENTRY in both forms, and CHANGE-CLASS (2.1). -/

namespace Sys2Proof.Machine

/-- CLASS-ENTRY, read form (R29). -/
def takeClassEntryRead (cls : Byte) (s : State) : State × Response :=
  match classOfByte cls with
  | some c => answered s .ok (classPayload s.classes[c.val])
  | none => bare s .range

/-- CLASS_ENTRY_READ (R29). -/
def execClassEntryRead (cls : Byte) (s : State) : Result := s.station (.classEntryRead cls) (takeClassEntryRead cls)

/-- A record of a class is in an active state (R30). -/
def State.classBusy (s : State) (c : Fin 8) : Bool :=
  allSlots.any fun i =>
    match s.recordAt i with
    | some r => decide (r.cls = c) && r.isActive
    | none => false

/-- A slot holds a record of a class with window parameter 0 (R30). -/
def State.usesClassWindow (s : State) (c : Fin 8) (i : Fin 48) : Bool :=
  match s.recordAt i with
  | some r => decide (r.cls = c) && decide (r.params.window = 0)
  | none => false

/-- The window test of a new capture radius: every pair with a member that takes its window from the class (R30). -/
def classTestFails (before after : State) (c : Fin 8) : Bool :=
  allSlots.any fun i => before.usesClassWindow c i && windowTestFails before after i

/-- A class entry written (R30). -/
def State.setClass (s : State) (c : Fin 8) (e : ClassEntry) : State := { s with classes := s.classes.set c.val e c.isLt }

/-- CLASS-ENTRY, write form, of a class: BUSY, RANGE, OVERLAP, ALREADY (R30). -/
def State.writeClass (s : State) (c : Fin 8) (e : ClassEntry) : State × Answer :=
  if s.classBusy c then (s, .busy)
  else if e.inRange = false then (s, .range)
  else if e.captureRadius ≠ s.classes[c.val].captureRadius ∧ classTestFails s (s.setClass c e) c = true then (s, .overlap)
  else if e = s.classes[c.val] then (s, .already)
  else (s.setClass c e, .ok)

/-- The six figures a CLASS-ENTRY write carries. -/
def classEntryOf (sphereOffset captureRadius centreRadius minIntensity rangeAgreement ringStep : BitVec 16) : ClassEntry :=
  { sphereOffset := sphereOffset.toNat, captureRadius := captureRadius.toNat, centreRadius := centreRadius.toNat
    minIntensity := minIntensity.toNat, rangeAgreement := rangeAgreement.toNat, ringStep := ringStep.toNat }

/-- CLASS-ENTRY, write form (R30). -/
def takeClassEntryWrite (cls : Byte) (sphereOffset captureRadius centreRadius minIntensity rangeAgreement ringStep : BitVec 16) (s : State) :
    State × Response :=
  match classOfByte cls with
  | some c =>
    let t := s.writeClass c (classEntryOf sphereOffset captureRadius centreRadius minIntensity rangeAgreement ringStep)
    bare t.1 t.2
  | none => bare s .range

/-- CLASS_ENTRY_WRITE (R30). -/
def execClassEntryWrite (cls : Byte) (sphereOffset captureRadius centreRadius minIntensity rangeAgreement ringStep : BitVec 16) (s : State) : Result :=
  s.station (.classEntryWrite cls sphereOffset captureRadius centreRadius minIntensity rangeAgreement ringStep)
    (takeClassEntryWrite cls sphereOffset captureRadius centreRadius minIntensity rangeAgreement ringStep)

/-- CHANGE-CLASS of a live record to a class: OVERLAP, ALREADY (R31). -/
def State.changeClassOf (s : State) (h : Handle) (r : Record) (c : Fin 8) : State × Answer :=
  let t := s.modifyRecord h fun r => { r with cls := c }
  if r.position.isSome = true ∧ r.params.window = 0 ∧ windowTestFails s t h.slot = true then (s, .overlap)
  else if r.cls = c then (s, .already)
  else (t, .ok)

/-- CHANGE-CLASS: BUSY, then RANGE, then the checks of its class (R31). -/
def takeChangeClass (slot gen cls : Byte) (s : State) : State × Response :=
  s.onRecord (s.lookupOwned slot gen) fun h r =>
    if r.isActive then bare s .busy
    else
      match classOfByte cls with
      | none => bare s .range
      | some c =>
        let t := s.changeClassOf h r c
        bare t.1 t.2

/-- CHANGE_CLASS (R31). -/
def execChangeClass (slot gen cls : Byte) (s : State) : Result := s.station (.changeClass slot gen cls) (takeChangeClass slot gen cls)

end Sys2Proof.Machine
end

