-- ==== Sys2Proof/Machine/Revisits.lean ====
section
/-! DEFINITION. The revisit scheduler's commands and its own event: SET-REVISIT, REVISIT-ENTRY and the expiry of a due time (5.2, 5.3, 5.8). -/

namespace Sys2Proof.Machine

/-- A REVISIT-origin request for the record in a slot is in the queue or holds the grant (R106). -/
def State.revisitRequested (s : State) (i : Fin 48) : Bool :=
  (match s.queuedAt i with
   | some e => decide (e.request.origin = .revisit)
   | none => false)
  || (match s.arbiter.grant with
      | some g => decide (g.handle.slot = i) && decide (g.origin = .revisit)
      | none => false)

/-- The status of an entry after a new nonzero period (R106). -/
def State.statusAtPeriod (s : State) (i : Fin 48) : RevisitStatus :=
  match s.entryAt i with
  | some e => if e.status = .offered then .offered else .scheduled
  | none => if s.revisitRequested i then .offered else .scheduled

/-- What a new period does to the list (R106). -/
def State.reschedule (s : State) (h : Handle) (period : Nat) : State :=
  if period = 0 then s.removeEntry h.slot
  else s.placeEntry { handle := h, due := s.now + timeOfPeriod period, status := s.statusAtPeriod h.slot }

/-- SET-REVISIT of a live record the station owns: KIND, RANGE, FULL, ALREADY (R105). -/
def State.setRevisitOf (s : State) (h : Handle) (r : Record) (period : Nat) : State × Answer :=
  if r.kind = .roving then (s, .kind)
  else if periodInRange period = false then (s, .range)
  else if period ≠ 0 ∧ s.entryAt h.slot = none ∧ 32 ≤ s.scheduler.entries.length then (s, .full)
  else if period = r.period then (s, .already)
  else ((s.modifyRecord h fun r => { r with period := period }).reschedule h period, .ok)

/-- SET-REVISIT (R105). -/
def takeSetRevisit (slot gen : Byte) (period : BitVec 16) (s : State) : State × Response :=
  s.onRecord (s.lookupOwned slot gen) fun h r =>
    let t := s.setRevisitOf h r period.toNat
    bare t.1 t.2

/-- SET_REVISIT (R105). -/
def execSetRevisit (slot gen : Byte) (period : BitVec 16) (s : State) : Result :=
  s.station (.setRevisit slot gen period) (takeSetRevisit slot gen period)

/-- A list entry as REVISIT-ENTRY carries it: handle, period, due time as reported time, status, miss count (R120, log 6). -/
def State.revisitEntryBytes (s : State) (e : RevisitEntry) : List Byte :=
  let r := s.live e.handle
  handleBytes e.handle ++ nat2 ((r.map (·.period)).getD 0) ++ bytes6 (e.due + s.time.offset) ++ [Config.revisitStatusCode e.status]
    ++ nat1 ((r.map (·.missCount)).getD 0)

/-- REVISIT-ENTRY (R120). -/
def takeRevisitEntry (position : Byte) (s : State) : State × Response :=
  if 31 < position.toNat then bare s .range
  else
    match s.scheduler.entries[position.toNat]? with
    | some e => answered s .ok (nat1 s.scheduler.entries.length ++ s.revisitEntryBytes e)
    | none => answered s .ok (nat1 s.scheduler.entries.length)

/-- REVISIT_ENTRY (R120). -/
def execRevisitEntry (position : Byte) (s : State) : Result := s.station (.revisitEntry position) (takeRevisitEntry position)

/-- The first SCHEDULED entry of the list whose due time has come (R108, log 2). -/
def State.dueEntry (s : State) : Option RevisitEntry :=
  s.scheduler.entries.find? fun e => decide (e.status = .scheduled) && reached s.now e.due

/-- The expiry of a SCHEDULED entry's due time: the entry becomes DUE, and a pass follows if the scheduler is released (R108, R109). -/
def State.takeDueExpiry (s : State) : State :=
  match s.dueEntry with
  | some e => (s.setEntryStatus e.handle.slot .due).setPassWanted true
  | none => s

/-- DUE_TIME_EXPIRY (R108). -/
def execDueTimeExpiry (s : State) : Result := s.ownEvent (·.takeDueExpiry)

end Sys2Proof.Machine
end

