-- ==== Sys2Proof/Machine/Sweeps.lean ====
section
/-! DEFINITION. Scans and sweeps (chapter 8). -/

namespace Sys2Proof.Machine

/-- The slot after a slot in a direction, none at the end of the table (R161, R170). -/
def nextSlot (d : WalkDirection) (i : Fin 48) : Option (Fin 48) :=
  match d with
  | .up => if h : i.val + 1 < 48 then some ⟨i.val + 1, h⟩ else none
  | .down => if i.val = 0 then none else some ⟨i.val - 1, Nat.lt_of_le_of_lt (Nat.sub_le ..) i.isLt⟩

/-! ### SCAN (R161) -/

/-- What a SCAN finds: its result, the slot found if any, and the remaining count (R161). -/
structure ScanAnswer where
  result : ScanResult
  found : Option (Fin 48)
  remaining : Nat
  deriving DecidableEq, Repr

/-- The walk of a SCAN from a slot with a count (R161). -/
def scanWalk (s : State) (c : Condition) (d : WalkDirection) : (count : Nat) → Fin 48 → ScanAnswer
  | 0, _ => { result := .none, found := none, remaining := 0 }
  | n + 1, i =>
    if s.slotMatches c i then { result := .found, found := some i, remaining := n }
    else if n = 0 then { result := .none, found := none, remaining := 0 }
    else
      match nextSlot d i with
      | some j => scanWalk s c d n j
      | none => { result := .tableEnd, found := none, remaining := n }

/-- A SCAN's payload: the result, the handle where one is found, the remaining count (R161, log 6). -/
def State.scanPayload (s : State) (a : ScanAnswer) : List Byte :=
  [Config.scanResultCode a.result]
    ++ (match a.found with
        | some i => handleBytes (s.handleOf i)
        | none => [])
    ++ nat1 a.remaining

/-- SCAN (R161). -/
def takeScan (start direction count : Byte) (condition : ConditionBytes) (s : State) : State × Response :=
  match slotOf start, walkOf direction, conditionOf condition with
  | some i, some d, some c =>
    if 48 < count.toNat then bare s .range else answered s .ok (s.scanPayload (scanWalk s c d count.toNat i))
  | _, _, _ => bare s .range

/-- SCAN (R161). -/
def execScan (start direction count : Byte) (condition : ConditionBytes) (s : State) : Result :=
  s.station (.scan start direction count condition) (takeScan start direction count condition)

/-! ### SWEEP (R164) -/

/-- The sweep unit rewritten. -/
def State.setSweep (s : State) (w : SweepUnit) : State := { s with sweep := w }

/-- A sweep that ends writes the last result, and the unit becomes IDLE (R163). -/
def State.writeResult (s : State) (cause : EndCause) (action : SweepAction) (acted skipped : Nat) : State :=
  s.setSweep { inFlight := none, lastResult := some { cause := cause, action := action, acted := acted, skipped := skipped } }

/-- A sweep ends with its count used up or past the end of the table: the last result, and the notice SWEEP (R164, R170). -/
def State.sweepEnds (s : State) (cause : EndCause) (action : SweepAction) (acted skipped : Nat) : State :=
  (s.writeResult cause action acted skipped).setDeviceNotice .sweep

/-- A SWEEP that passes its checks (R164). -/
def State.startSweep (s : State) (start : Fin 48) (d : WalkDirection) (count : Nat) (c : Condition) (a : SweepAction) : State :=
  let sw : Sweep := { condition := c, action := a, direction := d, next := start, remaining := count, acted := 0, skipped := 0 }
  if count = 0 then s.sweepEnds .count a 0 0 else s.setSweep { s.sweep with inFlight := some sw }

/-- SWEEP: RANGE, then BUSY (R164). -/
def takeSweep (start direction count : Byte) (condition : ConditionBytes) (action : Byte) (s : State) : State × Response :=
  match slotOf start, walkOf direction, conditionOf condition, actionOf action with
  | some i, some d, some c, some a =>
    if 48 < count.toNat then bare s .range
    else if s.sweep.inFlight.isSome then bare s .busy
    else bare (s.startSweep i d count.toNat c a) .ok
  | _, _, _, _ => bare s .range

/-- SWEEP (R164). -/
def execSweep (start direction count : Byte) (condition : ConditionBytes) (action : Byte) (s : State) : Result :=
  s.station (.sweep start direction count condition action) (takeSweep start direction count condition action)

/-! ### Sweep steps (R165 to R170) -/

/-- The owner-checked actions refuse a PENDANT-owned record (R166). -/
def ownedOr (s : State) (r : Record) (t : State × Answer) : State × Answer := if r.owner = .pendant then (s, .owner) else t

/-- A sweep's action applied to the live record of a slot as its single command would be (R166). -/
def State.actOnRecord (s : State) (a : SweepAction) (h : Handle) (r : Record) : State × Answer :=
  match a with
  | .release => s.releaseRecord h r
  | .retire => ownedOr s r (s.retireRecord h r)
  | .revisitOff => ownedOr s r (s.setRevisitOf h r 0)
  | .holdOn => ownedOr s r (s.setHoldOf h r true)
  | .holdOff => ownedOr s r (s.setHoldOf h r false)

/-- A sweep's action applied to a matching slot; a VACANT one is refused (R166). -/
def State.actOnSlot (s : State) (a : SweepAction) (i : Fin 48) : State × Answer :=
  match s.recordAt i with
  | some r => s.actOnRecord a (s.handleOf i) r
  | none => (s, .vacant)

/-- The answer counts as acted: OK or ALREADY (R166). -/
def countsActed (a : Answer) : Bool := decide (a = .ok) || decide (a = .already)

/-- The sweep with a step's result counted (R166). -/
def Sweep.counted (sw : Sweep) (a : Answer) : Sweep :=
  if countsActed a then { sw with acted := sw.acted + 1 } else { sw with skipped := sw.skipped + 1 }

/-- The sweep moved on after its slot (R170). -/
def State.moveSweepOn (s : State) (sw : Sweep) : State :=
  if sw.remaining ≤ 1 then s.sweepEnds .count sw.action sw.acted sw.skipped
  else
    match nextSlot sw.direction sw.next with
    | none => s.sweepEnds .tableEnd sw.action sw.acted sw.skipped
    | some j => s.setSweep { s.sweep with inFlight := some { sw with next := j, remaining := sw.remaining - 1 } }

/-- One sweep step (R165, R170). -/
def State.sweepStep (s : State) (sw : Sweep) : State :=
  if s.slotMatches sw.condition sw.next then
    let t := s.actOnSlot sw.action sw.next
    t.1.moveSweepOn (sw.counted t.2)
  else s.moveSweepOn sw

/-- SWEEP_STEP; without a sweep in flight there is no step (R165). -/
def execSweepStep (s : State) : Result :=
  s.ownEvent fun s =>
    match s.sweep.inFlight with
    | some sw => s.sweepStep sw
    | none => s

/-! ### SWEEP-STATUS and SWEEP-STOP (R172, R173) -/

/-- The sweep's items as SWEEP-STATUS, SWEEP-STOP and DEVICE-STATUS carry them (R172, R173, R154, log 6). -/
def SweepUnit.statusBytes (w : SweepUnit) : List Byte :=
  match w.inFlight with
  | some sw =>
    [Config.sweepStateCode true, actionCode sw.action, walkCode sw.direction, BitVec.ofNat 8 sw.next.val] ++ nat1 sw.remaining
      ++ nat1 sw.acted ++ nat1 sw.skipped
  | none =>
    match w.lastResult with
    | some l => [Config.sweepStateCode false, flagByte true, Config.endCauseCode l.cause, actionCode l.action] ++ nat1 l.acted ++ nat1 l.skipped
    | none => [Config.sweepStateCode false, flagByte false, 0#8, 0#8, 0#8, 0#8]

/-- SWEEP_STATUS (R172). -/
def execSweepStatus (s : State) : Result := s.station .sweepStatus fun s => answered s .ok s.sweep.statusBytes

/-- SWEEP-STOP (R173). -/
def takeSweepStop (s : State) : State × Response :=
  match s.sweep.inFlight with
  | some sw => answered (s.writeResult .stopped sw.action sw.acted sw.skipped) .ok s.sweep.statusBytes
  | none => answered s .already s.sweep.statusBytes

/-- SWEEP_STOP (R173). -/
def execSweepStop (s : State) : Result := s.station .sweepStop takeSweepStop

end Sys2Proof.Machine
end

