-- ==== Sys2Proof/Machine/Notices.lean ====
section
/-! DEFINITION. The notice unit's commands: NOTICE-CONTROL, NEXT-NOTICE and DEVICE-STATUS (chapter 7). -/

namespace Sys2Proof.Machine

/-! ### NOTICE-CONTROL (R148) -/

/-- NOTICE_CONTROL_READ (R148). -/
def execNoticeControlRead (s : State) : Result :=
  s.station .noticeControlRead fun s =>
    answered s .ok [s.notices.recordMask, s.notices.deviceMask.setWidth 8, flagByte s.notices.master]

/-- The masks and the master enable written, and the line judged on them (R148, R149). -/
def State.writeMasks (s : State) (recordMask : BitVec 8) (deviceMask : BitVec 7) (master : Bool) : State :=
  State.judgeLine { s with notices := { s.notices with recordMask := recordMask, deviceMask := deviceMask, master := master } }

/-- NOTICE-CONTROL, write form: bit 7 of the device mask and a master byte that is neither 0 nor 1 are RANGE (R148, R190). -/
def takeNoticeControlWrite (recordMask deviceMask master : Byte) (s : State) : State × Response :=
  match onOffOf master with
  | none => bare s .range
  | some m =>
    if 128 ≤ deviceMask.toNat then bare s .range
    else if recordMask = s.notices.recordMask ∧ deviceMask.setWidth 7 = s.notices.deviceMask ∧ m = s.notices.master then bare s .already
    else bare (s.writeMasks recordMask (deviceMask.setWidth 7) m) .ok

/-- NOTICE_CONTROL_WRITE (R148). -/
def execNoticeControlWrite (recordMask deviceMask master : Byte) (s : State) : Result :=
  s.station (.noticeControlWrite recordMask deviceMask master) (takeNoticeControlWrite recordMask deviceMask master)

/-! ### NEXT-NOTICE (R150) -/

/-- The unmasked kinds of the device set cleared (R150). -/
def State.clearDeviceNotices (s : State) : State :=
  State.judgeLine { s with notices := { s.notices with device := s.notices.device &&& s.notices.deviceMask } }

/-- The unmasked kinds of a record cleared (R150). -/
def State.clearRecordNotices (s : State) (h : Handle) : State :=
  (s.modifyRecord h fun r => { r with notices := r.notices &&& s.notices.recordMask }).judgeLine

/-- The lowest-numbered slot with an unmasked pending kind (R150). -/
def State.firstPending (s : State) : Option (Fin 48) := allSlots.find? s.slotPending

/-- NEXT-NOTICE (R150, log 6). -/
def takeNextNotice (s : State) : State × Response :=
  if s.notices.unmaskedDevice ≠ 0#7 then
    let t := s.clearDeviceNotices
    answered t .ok [Config.noticeSourceCode .device, s.notices.unmaskedDevice.setWidth 8, flagByte t.anyPending]
  else
    match s.firstPending with
    | some i =>
      let t := s.clearRecordNotices (s.handleOf i)
      answered t .ok ([Config.noticeSourceCode .record] ++ handleBytes (s.handleOf i)
        ++ [((s.recordAt i).map s.notices.unmaskedRecord).getD 0#8, flagByte t.anyPending])
    | none => answered s .ok [Config.noticeSourceCode .none, flagByte s.anyPending]

/-- NEXT_NOTICE (R150). -/
def execNextNotice (s : State) : Result := s.station .nextNotice takeNextNotice

/-! ### DEVICE-STATUS (R154) -/

/-- DEVICE-STATUS's payload (R154, log 6). -/
def State.deviceStatusPayload (s : State) : List Byte :=
  nat2 s.notices.falseReturns ++ nat2 s.notices.rangeFailures ++ nat2 s.notices.frameRejects ++ nat1 s.notices.pendantErrors
    ++ [Config.runModeCode s.arbiter.runMode] ++ s.grantBytes
    ++ nat1 s.arbiter.queue.length ++ nat1 s.arbiter.stack.length ++ nat1 s.scheduler.entries.length
    ++ s.sweep.statusBytes ++ [s.notices.device.setWidth 8]

/-- DEVICE_STATUS: the counters are cleared after the answer is formed (R154). -/
def execDeviceStatus (s : State) : Result := s.station .deviceStatus fun s => answered s.clearCounters .ok s.deviceStatusPayload

end Sys2Proof.Machine
end

