-- ==== Sys2Proof/Machine/Matcher.lean ====
section
/-! DEFINITION. The matcher (2.4): the return direction of a frame, the verdicts, the centring judgement, and the deliveries the matcher makes itself. -/

namespace Sys2Proof.Machine

/-- The verdict on a frame in SLEWING, COASTING and SEARCHING (R42). -/
inductive Verdict where
  | none | capture | ambiguity | falseReturn
  deriving DecidableEq, Repr

/-- The judgement of a frame in CENTRING (R44). -/
inductive Centring where
  | lost | centred | offCentre
  deriving DecidableEq, Repr

/-- The return direction: encoder angles plus spot offset, normalised and held (R40, R32). -/
def returnDirection (f : Frame) : Direction :=
  { azimuth := normAzimuth (f.encoderAzimuth + f.spotX), elevation := holdElevation (f.encoderElevation + f.spotY) }

/-- The frame has a return for a target: its intensity is at least the minimum intensity of the target's class (R40). -/
def State.hasReturn (s : State) (target : Record) (f : Frame) : Bool := decide ((s.classOf target).minIntensity ≤ f.intensity)

/-- In SLEWING and COASTING a return is inside the target's window when its direction is, the window standing on the prediction (R33, R41). -/
def State.insideOn (s : State) (target : Record) (centre : Direction) (f : Frame) : Bool :=
  insideWindow (returnDirection f) centre (s.effectiveWindow target)

/-- In SEARCHING a return is inside the target's window, which follows the beam, when both components of its spot offset are within the effective window
(R41): near the elevation limits the held return direction would say otherwise. -/
def State.insideOnBeam (s : State) (target : Record) (f : Frame) : Bool :=
  decide (f.spotX.natAbs ≤ s.effectiveWindow target) && decide (f.spotY.natAbs ≤ s.effectiveWindow target)

/-- The verdict on a frame for the target in a slot, from whether its return is inside the target's window (R42). -/
def State.verdict (s : State) (slot : Fin 48) (target : Record) (inside : Bool) (f : Frame) : Verdict :=
  if !s.hasReturn target f then .none
  else if !inside then .falseReturn
  else if (s.nearSlotOf slot (returnDirection f)).isSome then .ambiguity
  else .capture

/-- The spot offset is within a centre radius: its length is at most the radius (R44). -/
def spotWithin (f : Frame) (radius : Nat) : Bool := decide (f.spotX * f.spotX + f.spotY * f.spotY ≤ (radius * radius : Nat))

/-- The centring judgement of a frame, the target's window centred on the last captured direction (R44). -/
def State.centring (s : State) (target : Record) (lastCaptured : Direction) (f : Frame) : Centring :=
  if !s.hasReturn target f then .lost
  else if !insideWindow (returnDirection f) lastCaptured (s.effectiveWindow target) then .lost
  else if spotWithin f (s.classOf target).centreRadius then .centred
  else .offCentre

/-- What the matcher delivers with a verdict (R43). -/
def State.deliverVerdict (s : State) (h : Handle) (v : Verdict) : State :=
  match v with
  | .ambiguity => (s.modifyRecord h fun r => { r with ambiguities := satAdd 255 r.ambiguities 1 }).setRecordNotice .ambig h
  | .falseReturn => s.countFalseReturn
  | .none | .capture => s

end Sys2Proof.Machine
end

