-- ==== Sys2Proof/Machine/Spiral.lean ====
section
/-! DEFINITION. The search spiral (R69): the waypoints, their order, and which of them are skipped. The cosine and the sine are computed as fixed-point
numbers, exact to 24 decimals, which is enough for every offset the manual's ranges allow to be truncated as R69 says (log 17). -/

namespace Sys2Proof.Machine

/-- The fixed point of the series: 36 decimals. -/
def seriesScale : Int := 1000000000000000000000000000000000000

/-- The fixed point of a cosine or sine as used: 24 decimals. -/
def trigScale : Int := 1000000000000000000000000

/-- π at the fixed point of the series. -/
def piScaled : Int := 3141592653589793238462643383279502884

/-- terms more terms of the alternating series of the cosine or sine: term is the term of degree m, square the argument's square. -/
def seriesSum (square : Int) : (terms : Nat) → (m : Nat) → (term sum : Int) → Int
  | 0, _, _, sum => sum
  | n + 1, m, term, sum =>
    let next := -((term * square).tdiv seriesScale).tdiv ((m + 1) * (m + 2))
    seriesSum square n (m + 2) next (sum + next)

/-- A number of the series' fixed point rounded to the nearest of the used one. -/
def roundScaled (x : Int) : Int := (2 * x + 1000000000000) / 2000000000000

/-- The angle 60° × j / k in radians, at the fixed point of the series. -/
def angleScaled (k j : Nat) : Int := (piScaled * j).tdiv (3 * k)

/-- The square of a number of the series' fixed point. -/
def squareScaled (x : Int) : Int := (x * x).tdiv seriesScale

/-- The cosine of 60° × j / k, for an angle of at most 90°. -/
def cosQuarter (k j : Nat) : Int := roundScaled (seriesSum (squareScaled (angleScaled k j)) 20 0 seriesScale seriesScale)

/-- The sine of 60° × j / k, for an angle of at most 90°. -/
def sinQuarter (k j : Nat) : Int := roundScaled (seriesSum (squareScaled (angleScaled k j)) 20 1 (angleScaled k j) (angleScaled k j))

/-- The cosine of 60° × j / k for an angle of at most 180°: cos (180° − a) = −cos a. -/
def cosHalf (k j : Nat) : Int := if 2 * j ≤ 3 * k then cosQuarter k j else -cosQuarter k (3 * k - j)

/-- The sine of 60° × j / k for an angle of at most 180°: sin (180° − a) = sin a. -/
def sinHalf (k j : Nat) : Int := if 2 * j ≤ 3 * k then sinQuarter k j else sinQuarter k (3 * k - j)

/-- The cosine of 360° × j / (6k) for j below 6k: cos (360° − a) = cos a. -/
def cosTurn (k j : Nat) : Int := if j ≤ 3 * k then cosHalf k j else cosHalf k (6 * k - j)

/-- The sine of 360° × j / (6k) for j below 6k: sin (360° − a) = −sin a. -/
def sinTurn (k j : Nat) : Int := if j ≤ 3 * k then sinHalf k j else -sinHalf k (6 * k - j)

/-- The azimuth offset of waypoint j of ring k: radius times cosine, truncated toward zero (R69). -/
def azimuthOffset (ringStep k j : Nat) : Int := (((k * ringStep : Nat) : Int) * cosTurn k j).tdiv trigScale

/-- The elevation offset of waypoint j of ring k: radius times sine, truncated toward zero (R69). -/
def elevationOffset (ringStep k j : Nat) : Int := (((k * ringStep : Nat) : Int) * sinTurn k j).tdiv trigScale

/-- The direction of a waypoint: the search centre plus the two offsets, the azimuth normalised, the elevation not held (R69). -/
def waypointAt (sr : Search) (k j : Nat) : Direction :=
  { azimuth := normAzimuth (sr.centre.azimuth + azimuthOffset sr.ringStep k j)
    elevation := sr.centre.elevation + elevationOffset sr.ringStep k j }

/-- The direction of a search's next waypoint. -/
def Search.waypoint (sr : Search) : Direction := waypointAt sr sr.ring sr.index

/-- The waypoints after the next waypoint, in the order walked: the rest of its ring, then each later ring from index 0 (R69). -/
def Search.later (sr : Search) : List (Nat × Nat) :=
  ((List.range (6 * sr.ring)).drop (sr.index + 1)).map (fun j => (sr.ring, j))
    ++ (List.range (sr.rings - sr.ring)).flatMap fun d =>
        (List.range (6 * (sr.ring + 1 + d))).map fun j => (sr.ring + 1 + d, j)

/-- A waypoint whose elevation lies outside ±1,500,000 µrad is skipped without a MOVE (R69). -/
def Search.notSkipped (sr : Search) (w : Nat × Nat) : Bool :=
  decide ((waypointAt sr w.1 w.2).elevation.natAbs ≤ 1500000)

/-- The search advanced past the waypoint reached to the next one not skipped, none if the spiral is exhausted (R70). -/
def Search.advance (sr : Search) : Option Search :=
  (sr.later.find? sr.notSkipped).map fun w => { sr with ring := w.1, index := w.2 }

end Sys2Proof.Machine
end

