-- ==== Sys2Proof/Machine/Pursuit.lean ====
section
/-! DEFINITION. The pursuit unit (chapter 3): the stages, the search, ranging, locking, the composition of fixes and the table's taking of them (1.8). -/

namespace Sys2Proof.Machine

/-! ### Stages and directions -/

/-- The context rewritten with a new stage, and the stage delivered to the table as the record's state (R46). -/
def State.setStage (s : State) (c : Context) (st : Stage) : State :=
  (s.setContext (some { c with stage := st })).setRecordState c.target (.active st)

/-- The aim the grant carries (R37). -/
def State.grantAim (s : State) : Option Direction := s.arbiter.grant.bind (·.aim)

/-- The target's prediction at the event's time (R37); a target that has lost every source is taken at the aim direction (log 12). -/
def State.targetPrediction (s : State) (c : Context) (r : Record) : Direction := (r.prediction s.grantAim s.now).getD c.aimDirection

/-- The last captured direction; a context without one is taken at the aim direction (log 12). -/
def Context.captured (c : Context) : Direction := c.lastCaptured.getD c.aimDirection

/-- A context that has followed the return of a frame (R49, R51, R56, R58). -/
def Context.follow (c : Context) (f : Frame) : Context :=
  { c with lastCaptured := some (returnDirection f), latestIntensity := some f.intensity }

/-! ### Searching (3.8) -/

/-- The search a start begins: frozen centre, the shape and the deadline read now, next waypoint ring 1, index 0 (R68). -/
def State.newSearch (s : State) (r : Record) (centre : Direction) : Search :=
  { centre := centre, rings := r.params.searchRings, ringStep := (s.classOf r).ringStep, ring := 1, index := 0
    deadline := s.now + timeOfMs r.params.searchLimit }

/-- A search starts (R68). -/
def State.startSearch (s : State) (c : Context) (r : Record) (centre : Direction) : State :=
  let search := s.newSearch r centre
  let c : Context := { c with
    moveInFlight := true, rangeInFlight := false, centredCount := 0, readings := 0, heldReading := none, fixWait := none
    coastDeadline := none, search := some search, nearSlot := none }
  ((s.withdrawRange.setStage c .searching).modifyRecord c.target fun r => { r with searches := satAdd 255 r.searches 1 }).sendMove
    search.waypoint

/-! ### Captures and centring (3.2, 3.3, 3.7, 3.8) -/

/-- A capture ends the slew, the coast or the search: FOLLOW, and CENTRING (R49, R66, R71). -/
def State.capture (s : State) (c : Context) (f : Frame) : State :=
  let c : Context := { c.follow f with centredCount := 0, moveInFlight := false, coastDeadline := none, search := none }
  (s.setStage c .centring).sendFollow (returnDirection f)

/-- A RANGE request is sent for the pursuit, with range in flight (R53, R54, R60, R61, R62). -/
def State.sendRangeFor (s : State) (c : Context) : State := (s.setContext (some { c with rangeInFlight := true })).sendRange

/-- Entry to RANGING (R53). -/
def State.enterRanging (s : State) (c : Context) : State :=
  let c : Context := { c with stage := .ranging, readings := 0, heldReading := none }
  (s.setRecordState c.target (.active .ranging)).sendRangeFor c

/-- A frame in CENTRING (R51, R52). -/
def State.centringFrame (s : State) (c : Context) (r : Record) (f : Frame) : State :=
  match s.centring r c.captured f with
  | .lost => s.startSearch c r c.captured
  | .offCentre => (s.setContext (some { c.follow f with centredCount := 0 })).sendFollow (returnDirection f)
  | .centred =>
    let s := s.sendFollow (returnDirection f)
    let c : Context := { c.follow f with centredCount := c.centredCount + 1 }
    if 3 ≤ c.centredCount then s.enterRanging c else s.setContext (some c)

/-! ### Fixes (3.6, 1.8) -/

/-- A motion rate held in its range (R4). -/
def holdRate (x : Int) : Int := max (-2147483648) (min 2147483647 x)

/-- A rate: the difference times 1,000,000 over the time difference in µs, truncated toward zero and held (R64). -/
def rateOf (difference : Int) (dt : Nat) : Int := holdRate ((difference * 1000000).tdiv dt)

/-- The motion estimate of a new fix against the previous one, absent where a condition of R64 fails. -/
def motionOf (previous : Option Fix) (f : Fix) : Option Motion :=
  match previous with
  | none => none
  | some p =>
    let dt := (f.composed - p.composed).toNat
    if 1 ≤ dt ∧ dt ≤ 2000000 ∧ p.near = none ∧ f.near = none then
      some { azimuthRate := rateOf (azimuthDifference f.direction p.direction) dt
             elevationRate := rateOf (elevationDifference f.direction p.direction) dt
             rangeRate := rateOf ((f.range : Int) - p.range) dt }
    else none

/-- The fix composed from a READING (R63). -/
def State.composeFix (s : State) (c : Context) (r : Record) (distance : Nat) : Fix :=
  { direction := c.captured, range := distance + (s.classOf r).sphereOffset, stamp := s.reportedNow
    quality := c.latestIntensity.getD 0, near := c.nearSlot, mark := c.pendingMark, composed := s.now }

/-- A record after a fix is written: the Fix group replaced, and the motion estimate of a ROVING record with it (R21). -/
def Record.writeFix (r : Record) (f : Fix) (m : Option Motion) : Record :=
  { r with fix := some f, motion := m, sequence := r.sequence + 1, fixPending := true, fixOverrun := r.fixOverrun || r.fixPending }

/-- The table writes a fix: FIX is set, and AMBIG where the fix leaves an unreferenced fixed record overlapping (R21, R36). -/
def State.tableWritesFix (s : State) (h : Handle) (r : Record) (f : Fix) : State :=
  let m := if r.isFixed then none else motionOf r.fix f
  let s := (s.modifyRecord h fun r => r.writeFix f m).setRecordNotice .fix h
  if r.isFixed = true ∧ r.reference = none ∧ s.overlapsAny h.slot = true then s.setRecordNotice .ambig h else s

/-- A fix delivered to the table is written or discarded by hold and fix pending; a fix of a fixed record goes on to the scheduler (R21). -/
def State.deliverFix (s : State) (h : Handle) (f : Fix) : State :=
  match s.live h with
  | none => s
  | some r =>
    let s :=
      if r.hold = true ∧ r.fixPending = true then s.modifyRecord h fun r => { r with fixOverrun := true }
      else s.tableWritesFix h r f
    if r.isFixed then s.fixToScheduler h f else s

/-- A READING in LOCKED: the fix, then the end DONE or the next request or wait (R60). -/
def State.lockedReading (s : State) (c : Context) (r : Record) (distance : Nat) : State :=
  let f := s.composeFix c r distance
  let c : Context := { c with rangeInFlight := false, pendingMark := none }
  let s := (s.setContext (some c)).deliverFix c.target f
  match c.origin with
  | .revisit | .internal => s.pursuitEnds .done
  | .station | .pendant =>
    if r.params.fixInterval = 0 then s.sendRangeFor c
    else s.setContext (some { c with fixWait := some (s.now + timeOfMs r.params.fixInterval) })

/-- Entry to LOCKED on an agreeing reading, which makes the first fix (R57). -/
def State.enterLocked (s : State) (c : Context) (r : Record) (distance : Nat) : State :=
  let c : Context := { c with stage := .locked, nearSlot := none, readings := 0, heldReading := none }
  (((s.setRecordState c.target (.active .locked)).setRecordNotice .lock c.target)).lockedReading c r distance

/-! ### Readings and failures (3.4, 3.5) -/

/-- Two raw readings agree (R54). -/
def readingsAgree (held : Option Nat) (distance agreement : Nat) : Bool :=
  match held with
  | some h => decide (((h : Int) - distance).natAbs ≤ agreement)
  | none => false

/-- A range failure in RANGING: counted, and a search starts at the last captured direction (R54, R55). -/
def State.rangingFails (s : State) (c : Context) (r : Record) : State := s.countRangeFailure.startSearch c r c.captured

/-- A READING in RANGING (R54). -/
def State.rangingReading (s : State) (c : Context) (r : Record) (distance : Nat) : State :=
  let c1 : Context := { c with rangeInFlight := false, readings := c.readings + 1 }
  if c.readings = 0 then s.sendRangeFor { c1 with heldReading := some distance }
  else if readingsAgree c.heldReading distance (s.classOf r).rangeAgreement then s.enterLocked c1 r distance
  else if c1.readings < 4 then s.sendRangeFor { c1 with heldReading := some distance }
  else s.rangingFails c1 r

/-- A READING passed to the pursuit unit (R133). -/
def State.pursuitReading (s : State) (distance : Nat) : State :=
  match s.pursuit with
  | none => s
  | some c =>
    match s.live c.target with
    | none => s
    | some r =>
      match c.stage with
      | .ranging => s.rangingReading c r distance
      | .locked => s.lockedReading c r distance
      | _ => s

/-- A FAIL passed to the pursuit unit, TIMEOUT included (R55, R62, R134). -/
def State.pursuitFail (s : State) : State :=
  match s.pursuit with
  | none => s
  | some c =>
    match s.live c.target with
    | none => s
    | some r =>
      match c.stage with
      | .ranging => s.rangingFails { c with rangeInFlight := false } r
      | .locked => s.countRangeFailure.sendRangeFor c
      | _ => s

/-! ### Frames (R47, R49, R51, R56, R58, R59, R66, R71) -/

/-- A frame in SLEWING or SEARCHING, its return inside the target's window or not as R41 states (R49, R71). -/
def State.huntingFrame (s : State) (c : Context) (r : Record) (inside : Bool) (f : Frame) : State :=
  match s.verdict c.target.slot r inside f with
  | .capture => s.capture c f
  | v => s.deliverVerdict c.target v

/-- A frame in COASTING (R66). -/
def State.coastingFrame (s : State) (c : Context) (r : Record) (f : Frame) : State :=
  let centre := s.targetPrediction c r
  match s.verdict c.target.slot r (s.insideOn r centre f) f with
  | .capture => s.capture c f
  | v => (s.deliverVerdict c.target v).sendFollow centre

/-- A frame in RANGING (R56). -/
def State.rangingFrame (s : State) (c : Context) (r : Record) (f : Frame) : State :=
  if s.hasReturn r f then (s.setContext (some (c.follow f))).sendFollow (returnDirection f) else s.startSearch c r c.captured

/-- A break (R59). -/
def State.breakLock (s : State) (c : Context) (r : Record) : State :=
  let c : Context := { c with
    rangeInFlight := false, coastDeadline := some (s.now + timeOfMs r.params.coastTime), fixWait := none, nearSlot := none }
  (((s.withdrawRange.setStage c .coasting).modifyRecord c.target fun r =>
    { r with breaks := satAdd 255 r.breaks 1, lockLatch := false })).setRecordNotice .break c.target

/-- A frame in LOCKED: followed with its near slot, or a break (R45, R58, R59). -/
def State.lockedFrame (s : State) (c : Context) (r : Record) (f : Frame) : State :=
  if s.hasReturn r f then
    let near := s.nearSlotOf c.target.slot (returnDirection f)
    let s := if near.isSome = true ∧ near ≠ c.nearSlot then s.setRecordNotice .ambig c.target else s
    (s.setContext (some { c.follow f with nearSlot := near })).sendFollow (returnDirection f)
  else s.breakLock c r

/-- A taken frame passed to the pursuit unit, judged by the stage it finds (R41, R47). -/
def State.pursuitFrame (s : State) (f : Frame) : State :=
  match s.pursuit with
  | none => s
  | some c =>
    match s.live c.target with
    | none => s
    | some r =>
      match c.stage with
      | .slewing => s.huntingFrame c r (s.insideOn r (s.targetPrediction c r) f) f
      | .searching => s.huntingFrame c r (s.insideOnBeam r f) f
      | .coasting => s.coastingFrame c r f
      | .centring => s.centringFrame c r f
      | .ranging => s.rangingFrame c r f
      | .locked => s.lockedFrame c r f

/-! ### Arrivals, faults and expiries (R50, R61, R67, R70, R71, R72) -/

/-- An ARRIVED in SEARCHING: the next waypoint, or the end LOST of an exhausted spiral (R70). -/
def State.waypointReached (s : State) (c : Context) (search : Search) : State :=
  match search.advance with
  | some next => (s.setContext (some { c with moveInFlight := true, search := some next })).sendMove next.waypoint
  | none => (s.setContext (some { c with moveInFlight := false })).pursuitLost

/-- A current ARRIVED passed to the pursuit unit (R50, R70); without a move in flight it has no effect. -/
def State.pursuitArrived (s : State) : State :=
  match s.pursuit with
  | none => s
  | some c =>
    if c.moveInFlight then
      match c.stage, c.search, s.live c.target with
      | .slewing, _, some r => s.startSearch c r c.aimDirection
      | .searching, some search, _ => s.waypointReached c search
      | _, _, _ => s
    else s

/-- A drive FAULT passed to the pursuit unit ends the pursuit (R72). -/
def State.pursuitFault (s : State) : State := s.pursuitEnds .fault

/-- The coast deadline has come (R67, log 2). -/
def State.coastExpired (s : State) : Bool :=
  match s.pursuit.bind (·.coastDeadline) with
  | some t => reached s.now t
  | none => false

/-- The search deadline has come (R71, log 2). -/
def State.searchExpired (s : State) : Bool :=
  match s.pursuit.bind (·.search) with
  | some search => reached s.now search.deadline
  | none => false

/-- The fix wait has come (R61, log 2). -/
def State.fixWaitExpired (s : State) : Bool :=
  match s.pursuit.bind (·.fixWait) with
  | some t => reached s.now t
  | none => false

/-- The coast deadline's expiry: a search at the prediction (R67). -/
def State.takeCoastExpiry (s : State) : State :=
  match s.pursuit with
  | none => s
  | some c =>
    match s.live c.target with
    | some r => s.startSearch c r (s.targetPrediction c r)
    | none => s

/-- The fix wait's expiry: a RANGE request (R61). -/
def State.takeFixWaitExpiry (s : State) : State :=
  match s.pursuit with
  | none => s
  | some c => s.sendRangeFor { c with fixWait := none }

end Sys2Proof.Machine
end

