-- ==== Sys2Proof/Machine/PortEvents.lean ====
section
/-! DEFINITION. The time base's and the ports' commands, the instruments' messages, and the expiries of the deadlines of the ports and of the pursuit unit
(chapter 6, R61, R67, R71). -/

namespace Sys2Proof.Machine

/-! ### SYNC (R142) -/

/-- SYNC_READ: reported time and offset (R142). -/
def execSyncRead (s : State) : Result := s.station .syncRead fun s => answered s .ok (bytes6 s.reportedNow ++ bytes6 s.time.offset)

/-- The reporting offset rewritten. -/
def State.setOffset (s : State) (offset : Time) : State := { s with time := { s.time with offset := offset } }

/-- SYNC, write form (R142). -/
def takeSyncWrite (value : BitVec 64) (s : State) : State × Response :=
  let offset := value.setWidth 48 - s.time.count
  if 2 ^ 48 ≤ value.toNat then bare s .range
  else if offset = s.time.offset then bare s .already
  else bare (s.setOffset offset) .ok

/-- SYNC_WRITE (R142). -/
def execSyncWrite (value : BitVec 64) (s : State) : Result := s.station (.syncWrite value) (takeSyncWrite value)

/-! ### PORT-STATUS (R139) -/

/-- The time left before the outstanding request's deadline; 0 once it has come (R139). -/
def State.rangeTimeLeft (s : State) : Nat :=
  match s.ports.outstanding with
  | some q => if reached s.now q.deadline then 0 else (q.deadline - s.now).toNat
  | none => 0

/-- PORT-STATUS's payload (R139, log 6). -/
def State.portStatusPayload (s : State) : List Byte :=
  [flagBit 0 s.ports.expectedFrame.isSome ||| flagBit 1 s.ports.latestMoveTag.isSome ||| flagBit 2 s.ports.outstanding.isSome,
    s.ports.expectedFrame.getD 0#8, s.ports.nextMoveTag, s.ports.latestMoveTag.getD 0#8, s.ports.nextRangeTag,
    (s.ports.outstanding.map (·.tag)).getD 0#8]
    ++ nat4 s.rangeTimeLeft

/-- PORT_STATUS (R139). -/
def execPortStatus (s : State) : Result := s.station .portStatus fun s => answered s .ok s.portStatusPayload

/-! ### Detector frames (R122 to R124) -/

/-- A spot offset within ±4,000 µrad (R121). -/
def spotInRange (x : Int) : Bool := decide (x.natAbs ≤ 4000)

/-- The frame passes its check (R122). -/
def Frame.passes (f : Frame) : Bool := f.parityAgrees && f.valid && spotInRange f.spotX && spotInRange f.spotY

/-- The size of the gap before a frame whose number is trusted (R123). -/
def frameGap (expected : Option Byte) (f : Frame) : Nat :=
  match expected with
  | some e => if f.parityAgrees then (f.number - e).toNat else 0
  | none => 0

/-- The expected frame number after a frame (R123). -/
def expectedAfter (expected : Option Byte) (f : Frame) : Option Byte :=
  if f.parityAgrees then some (f.number + 1) else expected.map (· + 1)

/-- The port's check and count of a frame (R122, R123). -/
def State.countFrame (s : State) (f : Frame) : State :=
  (s.countFrameRejects (frameGap s.ports.expectedFrame f + if Frame.passes f then 0 else 1)).setExpectedFrame
    (expectedAfter s.ports.expectedFrame f)

/-- A frame arrives: it is counted, and a taken frame is passed on while the grant names a record and the part is RUNNING (R122, R124). -/
def State.takeFrame (s : State) (f : Frame) : State :=
  let s := s.countFrame f
  if Frame.passes f = true ∧ s.arbiter.grant.isSome = true ∧ s.arbiter.runMode = .running then s.pursuitFrame f else s

/-- DETECTOR_FRAME (R122). -/
def execDetectorFrame (f : Frame) (s : State) : Result := s.ownEvent (·.takeFrame f)

/-! ### Drive completions (R128 to R130) -/

/-- A drive completion is current (R128). -/
def State.moveIsCurrent (s : State) (tag : Byte) : Bool := decide (s.ports.latestMoveTag = some tag)

/-- An ARRIVED: a current one is passed on while the grant names a record (R129). -/
def State.takeArrived (s : State) (tag : Byte) : State :=
  if s.moveIsCurrent tag = true ∧ s.arbiter.grant.isSome = true then s.pursuitArrived else s

/-- ARRIVED (R129). -/
def execArrived (tag : Byte) (s : State) : Result := s.ownEvent (·.takeArrived tag)

/-- A FAULT: a current one sets DRIVE, and ends the pursuit while the grant names a record (R130). -/
def State.takeFault (s : State) (tag : Byte) : State :=
  if s.moveIsCurrent tag then
    let s := s.setDeviceNotice .drive
    if s.arbiter.grant.isSome then s.pursuitFault else s
  else s

/-- FAULT: whatever its reason (R72, R130). -/
def execDriveFault (tag : Byte) (_reason : DriveFaultReason) (s : State) : Result := s.ownEvent (·.takeFault tag)

/-! ### Range completions and the range timeout (R133, R134) -/

/-- A range completion is current (R133). -/
def State.rangeIsCurrent (s : State) (tag : Byte) : Bool :=
  match s.ports.outstanding with
  | some q => decide (q.tag = tag)
  | none => false

/-- A READING: a current one ends the outstanding request and is passed on (R133). -/
def State.takeReading (s : State) (tag : Byte) (distance : Nat) : State :=
  if s.rangeIsCurrent tag then s.withdrawRange.pursuitReading distance else s

/-- READING (R133). -/
def execReading (tag : Byte) (distance : Nat) (s : State) : Result := s.ownEvent (·.takeReading tag distance)

/-- A FAIL: a current one ends the outstanding request and is passed on (R133). -/
def State.takeFail (s : State) (tag : Byte) : State := if s.rangeIsCurrent tag then s.withdrawRange.pursuitFail else s

/-- FAIL: whatever its reason (R55, R62, R133). -/
def execFail (tag : Byte) (_reason : RangeFailReason) (s : State) : Result := s.ownEvent (·.takeFail tag)

/-- The outstanding request's deadline has come (R134, log 2). -/
def State.rangeExpired (s : State) : Bool :=
  match s.ports.outstanding with
  | some q => reached s.now q.deadline
  | none => false

/-- A range timeout: the request becomes absent, RANGE is set, and a FAIL is passed on (R134). -/
def State.takeRangeTimeout (s : State) : State :=
  if s.rangeExpired then (s.withdrawRange.setDeviceNotice .range).pursuitFail else s

/-- RANGE_TIMEOUT (R134). -/
def execRangeTimeout (s : State) : Result := s.ownEvent (·.takeRangeTimeout)

/-! ### The pursuit unit's deadlines (R61, R67, R71) -/

/-- COAST_DEADLINE_EXPIRY (R67). -/
def execCoastDeadlineExpiry (s : State) : Result := s.ownEvent fun s => if s.coastExpired then s.takeCoastExpiry else s

/-- SEARCH_DEADLINE_EXPIRY (R71). -/
def execSearchDeadlineExpiry (s : State) : Result := s.ownEvent fun s => if s.searchExpired then s.pursuitLost else s

/-- FIX_WAIT_EXPIRY (R61). -/
def execFixWaitExpiry (s : State) : Result := s.ownEvent fun s => if s.fixWaitExpired then s.takeFixWaitExpiry else s

end Sys2Proof.Machine
end

