-- ==== Sys2Proof/Machine/PendantRequests.lean ====
section
/-! DEFINITION. The pendant link (chapter 10): frame errors, presence, the eight requests, and the automatic status. -/

namespace Sys2Proof.Machine

/-- The pendant link rewritten. -/
def State.setPendant (s : State) (p : PendantLink) : State := { s with pendant := p }

/-! ### Frame errors and the line (R193) -/

/-- A frame error is counted: a break is, once until the line returns to idle (R193). -/
def errorCounts (e : PendantError) (inBreak : Bool) : Bool := !(decide (e = .lineBreak) && inBreak)

/-- A frame error: the frame is dropped, the receiver hunts, and the error is counted (R193). -/
def State.takeFrameError (s : State) (e : PendantError) : State :=
  let t := s.setPendant { s.pendant with receiver := .hunting, inBreak := s.pendant.inBreak || decide (e = .lineBreak) }
  if errorCounts e s.pendant.inBreak then t.countPendantError else t

/-- PENDANT_FRAME_ERROR (R193). -/
def execPendantFrameError (e : PendantError) (s : State) : Result := s.whenUp 0 (·.takeFrameError e)

/-- LINE_RETURN_TO_IDLE: another break can be counted (R193, log 15). -/
def execLineReturnToIdle (s : State) : Result := s.whenUp 0 fun s => s.setPendant { s.pendant with inBreak := false }

/-! ### Presence (R194, R195) -/

/-- The silence deadline's length, 5,000,000 µs (R194). -/
def silenceLength : Time := 5000000#48

/-- A good frame restarts the silence deadline and makes an absent pendant present (R194). -/
def State.goodFrame (s : State) : State :=
  let t := s.setPendant { s.pendant with receiver := .hunting, present := true, silenceDeadline := some (s.now + silenceLength) }
  if s.pendant.present then t else t.setDeviceNotice .pendant

/-- The silence deadline has come (R195, log 2). -/
def State.silenceExpired (s : State) : Bool :=
  match s.pendant.silenceDeadline with
  | some t => reached s.now t
  | none => false

/-- The pendant becomes absent, and its queue entries are removed (R195, R96). -/
def State.takeSilence (s : State) : State :=
  ((s.setPendant { s.pendant with present := false, silenceDeadline := none }).setDeviceNotice .pendant).removePendantEntries fun _ => true

/-- PENDANT_SILENCE_EXPIRY (R195). -/
def execPendantSilenceExpiry (s : State) : Result := s.ownEvent fun s => if s.silenceExpired then s.takeSilence else s

/-! ### Offsets (R196) -/

/-- The slot an offset names in the pendant window as it stands, none outside it (R196). -/
def State.offsetSlot (s : State) (offset : Byte) : Option (Fin 48) :=
  if offset.toNat < s.table.pendantWindow.length then
    if h : s.table.pendantWindow.base + offset.toNat < 48 then some ⟨s.table.pendantWindow.base + offset.toNat, h⟩ else none
  else none

/-- The reported generation of a slot is the slot's generation (R196). -/
def State.reportedCurrent (s : State) (i : Fin 48) : Bool := decide (s.pendant.reported[i.val] = some (s.slotAt i).generation)

/-- Checks 1 to 4 of R196; checkGeneration is off for POLL. -/
def State.pendantLookup (s : State) (offset : Byte) (checkGeneration : Bool) : Except Answer (Handle × Record) :=
  match s.offsetSlot offset with
  | none => .error .owner
  | some i =>
    match s.recordAt i with
    | none => .error .vacant
    | some r =>
      if r.owner ≠ .pendant then .error .owner
      else if checkGeneration = true ∧ s.reportedCurrent i = false then .error .stale
      else .ok (s.handleOf i, r)

/-! ### The automatic status (R202) -/

/-- What a request leaves for its status frame: the state after it, its answer, the offset named or created, and the mark MARK handed over. -/
structure Reply where
  after : State
  answer : Answer
  offset : Option Byte
  mark : Option Byte
  deriving DecidableEq, Repr

/-- The latest intensity, when the record of a slot holds the grant (R202). -/
def State.shownIntensity (s : State) (i : Fin 48) : Option Nat :=
  match s.pursuit with
  | some c => if c.target = s.handleOf i then c.latestIntensity else none
  | none => none

/-- The status frame of a request, formed on the state the request left (R202). -/
def State.statusFrame (s : State) (kind : Byte) (answer : Answer) (offset mark : Option Byte) : StatusFrame :=
  let slot := offset.bind s.offsetSlot
  let fix := (slot.bind s.recordAt).bind (·.fix)
  { kind := 0x80#8 + kind, answer := answer, offset := offset
    named := slot.map fun i => { handle := s.handleOf i, state := (s.recordAt i).map (·.state) }
    intensity := slot.bind s.shownIntensity
    fixRange := fix.map (·.range)
    mark := mark.orElse fun _ => fix.bind (·.mark) }

/-- A status frame handed to the line: sent at once if none is being sent, else waiting; a fifth waiting frame displaces the oldest (R202). -/
def PendantLink.send (p : PendantLink) (f : StatusFrame) : PendantLink :=
  if p.sending.isNone then { p with sending := some f }
  else { p with waiting := (if 4 ≤ p.waiting.length then p.waiting.tail else p.waiting) ++ [f] }

/-- A status frame that names a slot writes the slot's reported generation (R196, R202). -/
def PendantLink.report (p : PendantLink) (f : StatusFrame) : PendantLink :=
  match f.named with
  | some n => { p with reported := p.reported.set n.handle.slot.val (some n.handle.generation) n.handle.slot.isLt }
  | none => p

/-- The status frame formed and handed over (R202). -/
def State.sendStatus (s : State) (f : StatusFrame) : State := s.setPendant ((s.pendant.send f).report f)

/-- The payload of a status frame (R203). -/
def StatusFrame.payload (f : StatusFrame) : List Byte :=
  [answerCode f.answer, f.offset.getD 0xFF#8]
    ++ (match f.named with
        | some n => handleBytes n.handle ++ [stateCode n.state]
        | none => [0xFF#8, 0#8, 0xFF#8])
    ++ [flagBit 0 f.intensity.isSome ||| flagBit 1 f.fixRange.isSome ||| flagBit 2 f.mark.isSome]
    ++ nat2 (f.intensity.getD 0) ++ nat4 (f.fixRange.getD 0) ++ [f.mark.getD 0#8]

/-- The bytes of a status frame on PTXD (R203). -/
def StatusFrame.bytes (f : StatusFrame) : List Byte := pendantFrame f.kind f.payload

/-- STATUS_FRAME_SENT: the next waiting frame begins (R202); it has no effect while none is being sent. -/
def PendantLink.sent (p : PendantLink) : PendantLink :=
  match p.sending, p.waiting with
  | none, _ => p
  | some _, [] => { p with sending := none }
  | some _, f :: rest => { p with sending := some f, waiting := rest }

/-- STATUS_FRAME_SENT (R202). -/
def execStatusFrameSent (s : State) : Result := s.whenUp 0 fun s => s.setPendant s.pendant.sent

/-! ### Taking a request (R194) -/

/-- A good frame: presence, the length check, the request with its effects, and the status frame, in one event (R194, R202). -/
def State.pendantEvent (s : State) (kind : Byte) (lengthFits : Bool) (take : State → Reply) : Result :=
  s.whenUp 0 fun s =>
    let s := s.goodFrame
    if lengthFits then
      let reply := take s
      let t := reply.after.settle s.arbiter.queue.length
      t.sendStatus (t.statusFrame kind reply.answer reply.offset reply.mark)
    else s.sendStatus (s.statusFrame 0#8 .range none none)

/-- A request that names an offset: the checks of R196, then the request's own entry. -/
def State.onOffset (s : State) (offset : Byte) (checkGeneration : Bool) (take : Handle → Record → State × Answer) : Reply :=
  match s.pendantLookup offset checkGeneration with
  | .error a => { after := s, answer := a, offset := some offset, mark := none }
  | .ok (h, r) =>
    let t := take h r
    { after := t.1, answer := t.2, offset := some offset, mark := none }

/-- The frame carries one payload byte (R194). -/
def oneByte (payload : List Byte) : Bool := decide (payload.length = 1)

/-- The offset a frame of one payload byte names. -/
def offsetOf (payload : List Byte) : Byte := payload.headD 0#8

/-! ### The eight requests (R197 to R201) -/

/-- POLL (R197). -/
def execPoll (payload : List Byte) (s : State) : Result :=
  s.pendantEvent 0x01#8 (oneByte payload) fun s => s.onOffset (offsetOf payload) false fun _ _ => (s, .ok)

/-- CLAIM-NEW: CREATE of a ROVING record of class 0 in the pendant window (R198). -/
def takeClaimNew (s : State) : Reply :=
  match s.createIn s.table.pendantWindow .roving 0 .pendant with
  | some (t, h) =>
    { after := t, answer := .ok, offset := some (BitVec.ofNat 8 (h.slot.val - s.table.pendantWindow.base)), mark := none }
  | none => { after := s, answer := .full, offset := none, mark := none }

/-- CLAIM_NEW (R198). -/
def execClaimNew (payload : List Byte) (s : State) : Result := s.pendantEvent 0x02#8 payload.isEmpty takeClaimNew

/-- FIND of a record: PURSUE with origin PENDANT, no explicit priority and no aim (R86, R199). -/
def State.findRecord (s : State) (h : Handle) (r : Record) : State × Answer :=
  if s.arbiter.runMode = .parked then (s, .parked) else s.pursueRecord h r .pendant (s.arbiter.priorities.value .pendant) none

/-- FIND (R199). -/
def execFind (payload : List Byte) (s : State) : Result :=
  s.pendantEvent 0x03#8 (oneByte payload) fun s => s.onOffset (offsetOf payload) true s.findRecord

/-- LET_GO: RELEASE (R199). -/
def execLetGo (payload : List Byte) (s : State) : Result :=
  s.pendantEvent 0x04#8 (oneByte payload) fun s => s.onOffset (offsetOf payload) true s.releaseRecord

/-- HOLD_ON: SET of hold, on (R200). -/
def execHoldOn (payload : List Byte) (s : State) : Result :=
  s.pendantEvent 0x05#8 (oneByte payload) fun s => s.onOffset (offsetOf payload) true fun h r => s.setHoldOf h r true

/-- HOLD_OFF: SET of hold, off (R200). -/
def execHoldOff (payload : List Byte) (s : State) : Result :=
  s.pendantEvent 0x06#8 (oneByte payload) fun s => s.onOffset (offsetOf payload) true fun h r => s.setHoldOf h r false

/-- The mark counter's next value, passing from 255 to 1 (R201). -/
def nextMark (m : Byte) : Byte := if m = 255#8 then 1#8 else m + 1

/-- A mark issued: the counter, and the pending mark of the pursuit (R65, R201). -/
def State.issueMark (s : State) : State :=
  (s.setPendant { s.pendant with markCounter := nextMark s.pendant.markCounter }).setContext
    (s.pursuit.map fun c => { c with pendingMark := some (nextMark s.pendant.markCounter) })

/-- MARK (R201). -/
def takeMark (offset : Byte) (s : State) : Reply :=
  match s.pendantLookup offset true with
  | .error a => { after := s, answer := a, offset := some offset, mark := none }
  | .ok (_, r) =>
    if r.state = .active .locked then
      { after := s.issueMark, answer := .ok, offset := some offset, mark := some (nextMark s.pendant.markCounter) }
    else { after := s, answer := .notLocked, offset := some offset, mark := none }

/-- MARK (R201). -/
def execMark (payload : List Byte) (s : State) : Result := s.pendantEvent 0x07#8 (oneByte payload) (takeMark (offsetOf payload))

/-- DROP: RETIRE (R200). -/
def execDrop (payload : List Byte) (s : State) : Result :=
  s.pendantEvent 0x08#8 (oneByte payload) fun s => s.onOffset (offsetOf payload) true s.retireRecord

end Sys2Proof.Machine
end

