-- ==== Sys2Proof/Machine/ResetPins.lean ====
section
/-! DEFINITION. The reset pin RESETN: the power-on condition, and the rise that starts the part (R24, R125, R136). -/

namespace Sys2Proof.Machine

/-- RESETN_LOW: every block is brought to its power-on condition; the commands still waiting are the world's (R24, R175). -/
def execResetnLow (s : State) : Result := .next { State.powerOn with pending := s.pending }

/-- The rise of RESETN: the drive link sends a HALT, and the part takes events from here on (R125, R136, R140). -/
def State.rise (s : State) : State := State.sendHalt { s.quiet with resetnLow := false }

/-- RESETN_RISE; a rise while RESETN is high is none (log 4). -/
def execResetnRise (s : State) : Result := .next (if s.resetnLow then s.rise else s)

end Sys2Proof.Machine
end

