-- ==== Sys2Proof/Machine/Dispatch.lean ====
section
/-! DEFINITION. The meaning of each command: one arm per constructor of Instr. -/

namespace Sys2Proof.Machine

/-- The effect of a command on everything but the queue. -/
def exec (i : Instr) (s : State) : Host.Outcome State Fault Refusal :=
  match i with
  | .resetnLow => Sys2Proof.Machine.execResetnLow s
  | .resetnRise => Sys2Proof.Machine.execResetnRise s
  | .emptyTransaction clocks => Sys2Proof.Machine.execEmptyTransaction clocks s
  | .readTransaction rest => Sys2Proof.Machine.execReadTransaction rest s
  | .badframe bytes => Sys2Proof.Machine.execBadframe bytes s
  | .unknown code payload => Sys2Proof.Machine.execUnknown code payload s
  | .create kind cls => Sys2Proof.Machine.execCreate kind cls s
  | .retire slot gen => Sys2Proof.Machine.execRetire slot gen s
  | .read slot gen group => Sys2Proof.Machine.execRead slot gen group s
  | .setParameters slot gen selector window coastTime fixInterval searchRings searchLimit => Sys2Proof.Machine.execSetParameters slot gen selector window coastTime fixInterval searchRings searchLimit s
  | .setReference slot gen selector azimuth elevation range angleTolerance rangeTolerance => Sys2Proof.Machine.execSetReference slot gen selector azimuth elevation range angleTolerance rangeTolerance s
  | .setReferenceRemoval slot gen selector => Sys2Proof.Machine.execSetReferenceRemoval slot gen selector s
  | .setHold slot gen selector value => Sys2Proof.Machine.execSetHold slot gen selector value s
  | .setAutoResume slot gen value => Sys2Proof.Machine.execSetAutoResume slot gen value s
  | .changeKind slot gen expected wanted => Sys2Proof.Machine.execChangeKind slot gen expected wanted s
  | .take slot gen => Sys2Proof.Machine.execTake slot gen s
  | .give slot gen => Sys2Proof.Machine.execGive slot gen s
  | .windows selector stationBase stationLength pendantBase pendantLength => Sys2Proof.Machine.execWindows selector stationBase stationLength pendantBase pendantLength s
  | .classEntryRead cls => Sys2Proof.Machine.execClassEntryRead cls s
  | .classEntryWrite cls sphereOffset captureRadius centreRadius minIntensity rangeAgreement ringStep => Sys2Proof.Machine.execClassEntryWrite cls sphereOffset captureRadius centreRadius minIntensity rangeAgreement ringStep s
  | .changeClass slot gen cls => Sys2Proof.Machine.execChangeClass slot gen cls s
  | .pursue slot gen flags priority azimuth elevation => Sys2Proof.Machine.execPursue slot gen flags priority azimuth elevation s
  | .release slot gen => Sys2Proof.Machine.execRelease slot gen s
  | .priorityRead origin => Sys2Proof.Machine.execPriorityRead origin s
  | .priorityWrite origin value => Sys2Proof.Machine.execPriorityWrite origin value s
  | .park => Sys2Proof.Machine.execPark s
  | .unpark => Sys2Proof.Machine.execUnpark s
  | .beamStatus => Sys2Proof.Machine.execBeamStatus s
  | .setRevisit slot gen period => Sys2Proof.Machine.execSetRevisit slot gen period s
  | .revisitEntry position => Sys2Proof.Machine.execRevisitEntry position s
  | .syncRead => Sys2Proof.Machine.execSyncRead s
  | .syncWrite value => Sys2Proof.Machine.execSyncWrite value s
  | .portStatus => Sys2Proof.Machine.execPortStatus s
  | .noticeControlRead => Sys2Proof.Machine.execNoticeControlRead s
  | .noticeControlWrite recordMask deviceMask master => Sys2Proof.Machine.execNoticeControlWrite recordMask deviceMask master s
  | .nextNotice => Sys2Proof.Machine.execNextNotice s
  | .deviceStatus => Sys2Proof.Machine.execDeviceStatus s
  | .scan start direction count condition => Sys2Proof.Machine.execScan start direction count condition s
  | .sweep start direction count condition action => Sys2Proof.Machine.execSweep start direction count condition action s
  | .sweepStatus => Sys2Proof.Machine.execSweepStatus s
  | .sweepStop => Sys2Proof.Machine.execSweepStop s
  | .reset => Sys2Proof.Machine.execReset s
  | .sweepStep => Sys2Proof.Machine.execSweepStep s
  | .detectorFrame frame => Sys2Proof.Machine.execDetectorFrame frame s
  | .arrived tag => Sys2Proof.Machine.execArrived tag s
  | .driveFault tag reason => Sys2Proof.Machine.execDriveFault tag reason s
  | .reading tag distance => Sys2Proof.Machine.execReading tag distance s
  | .fail tag reason => Sys2Proof.Machine.execFail tag reason s
  | .rangeTimeout => Sys2Proof.Machine.execRangeTimeout s
  | .coastDeadlineExpiry => Sys2Proof.Machine.execCoastDeadlineExpiry s
  | .searchDeadlineExpiry => Sys2Proof.Machine.execSearchDeadlineExpiry s
  | .fixWaitExpiry => Sys2Proof.Machine.execFixWaitExpiry s
  | .dueTimeExpiry => Sys2Proof.Machine.execDueTimeExpiry s
  | .pendantFrameError error => Sys2Proof.Machine.execPendantFrameError error s
  | .poll payload => Sys2Proof.Machine.execPoll payload s
  | .claimNew payload => Sys2Proof.Machine.execClaimNew payload s
  | .find payload => Sys2Proof.Machine.execFind payload s
  | .letGo payload => Sys2Proof.Machine.execLetGo payload s
  | .holdOn payload => Sys2Proof.Machine.execHoldOn payload s
  | .holdOff payload => Sys2Proof.Machine.execHoldOff payload s
  | .mark payload => Sys2Proof.Machine.execMark payload s
  | .drop payload => Sys2Proof.Machine.execDrop payload s
  | .pendantSilenceExpiry => Sys2Proof.Machine.execPendantSilenceExpiry s
  | .statusFrameSent => Sys2Proof.Machine.execStatusFrameSent s
  | .lineReturnToIdle => Sys2Proof.Machine.execLineReturnToIdle s

end Sys2Proof.Machine
end

