-- ==== Sys2Proof/Machine/Idle.lean ====
section
/-! DEFINITION. What the part does by itself when no command waits: its own first event, or one µs of the time base (R140, log 1). -/

namespace Sys2Proof.Machine

/-- The internal count one µs later (R140). -/
def State.count (s : State) : State := { s with time := { s.time with count := s.time.count + 1 } }

/-- The queue of commands rewritten. -/
def State.setPending (s : State) (l : List Instr) : State := { s with pending := l }

/-- The part's own event that is taken when no command waits, none if no deadline has come and no sweep is in flight. The order among deadlines that have
come together is the model's, DESIGN CHOICE (log 1): the manual leaves it to the world (R140). -/
def State.nextEvent (s : State) : Option Instr :=
  if s.rangeExpired then some .rangeTimeout
  else if s.coastExpired then some .coastDeadlineExpiry
  else if s.searchExpired then some .searchDeadlineExpiry
  else if s.fixWaitExpired then some .fixWaitExpiry
  else if s.dueEntry.isSome then some .dueTimeExpiry
  else if s.silenceExpired then some .pendantSilenceExpiry
  else if s.sweep.inFlight.isSome then some .sweepStep
  else none

/-- A step on an empty queue: nothing while RESETN is low, else the part's own event, else one µs (log 1). -/
def State.idle (s : State) : Host.Outcome State Fault Refusal :=
  if s.resetnLow then .next s
  else
    match s.nextEvent with
    | some i => exec i s
    | none => .next s.count

end Sys2Proof.Machine
end

