-- ==== Sys2Proof/Safety.lean ====
section
/-! DEFINITION. The vocabulary of the claims: what a plain station command leaves, what the beam's work never touches, and the properties of a state that
every step keeps. -/

namespace Sys2Proof.Machine

/-! ### What a command leaves -/

/-- The state a station command leaves when its own changes make t of s and nothing is sent to an instrument: the transaction's bytes are in the buffer,
the response is pending with READY high, SDO has shifted out the earlier response, and DRQ and RRQ are quiet (R175, R176, R178, R180, R182). -/
def answeredBy (s : State) (i : Instr) (r : Response) (t : State) : State :=
  { t with
    ports := { t.ports with driveOut := [], rangeOut := [] }
    link :=
      { received := (clockedBytes i).take 34
        more := decide (34 < (clockedBytes i).length)
        response := some r
        ready := true
        sdo := sdoBits s.link.response (clocksOf i)
        sdoNext := sdoStream s.link.response (clocksOf i / 8) } }

/-- The state an event leaves that changes s to t and sends nothing (log 11). -/
def sentNothing (t : State) : State :=
  { t with
    ports := { t.ports with driveOut := [], rangeOut := [] }
    link := { t.link with sdo := [], sdoNext := 0 } }

/-- A refusal's response, or the response of an answer that returns nothing (R181). -/
def noPayload (a : Answer) : Response := { status := a, payload := [] }

/-- An answer OK with its payload. -/
def okPayload (payload : List Byte) : Response := { status := .ok, payload := payload }

/-- A record written in place of the live record of a handle. -/
def State.withRecord (s : State) (h : Handle) (r : Record) : State := s.setSlot h.slot { generation := h.generation, record := some r }

/-- The pending response of a state answers with a given code and no payload, and READY is high. -/
def answersPlainly (s : State) (a : Answer) : Prop := s.link.response = some (noPayload a) ∧ s.link.ready = true

/-- A request of a priority for a record from an origin, with an aim or none. -/
def requestOf (h : Handle) (o : Origin) (priority : Nat) (aim : Option Direction) : Request :=
  { handle := h, origin := o, priority := priority, aim := aim }

/-- No revisit offer can change anything: no trigger is left over and no entry is DUE (R109, R110). -/
def NothingDue (s : State) : Prop := s.scheduler.passWanted = false ∧ s.dueSlots = []

/-! ### What an event of the beam leaves -/

/-- The state an event leaves that changes s to t and sends one drive request that takes no tag. -/
def sentDrive (t : State) (q : DriveRequest) : State := { sentNothing t with ports := { t.ports with driveOut := [q], rangeOut := [] } }

/-- The state an event leaves that changes s to t and sends a MOVE under the next move tag (R126). -/
def movedTo (t : State) (d : Direction) : State :=
  { sentNothing t with ports := { t.ports with
      latestMoveTag := some t.ports.nextMoveTag, nextMoveTag := t.ports.nextMoveTag + 1
      driveOut := [.move d t.ports.nextMoveTag], rangeOut := [] } }

/-- The state an event leaves that changes s to t and sends a RANGE request under the next range tag, with its deadline 250,000 µs on (R132). -/
def rangeAsked (t : State) : State :=
  { sentNothing t with ports := { t.ports with
      outstanding := some { tag := t.ports.nextRangeTag, deadline := t.time.count + 250000#48 }
      nextRangeTag := t.ports.nextRangeTag + 1, driveOut := [], rangeOut := [t.ports.nextRangeTag] } }

/-- The state a search start leaves at a centre (R68), with the first waypoint's MOVE: ring 1, index 0, one ring step to the right (R69). -/
def searchBegun (s : State) (c : Context) (r : Record) (centre : Direction) : State :=
  let step := s.classes[r.cls.val].ringStep
  let begun : Search :=
    { centre := centre, rings := r.params.searchRings, ringStep := step, ring := 1, index := 0
      deadline := s.time.count + BitVec.ofNat 48 (r.params.searchLimit * 1000) }
  let t := s.withRecord c.target { r with state := .active .searching, searches := min 255 (r.searches + 1) }
  movedTo { t with
      ports := { s.ports with outstanding := none }
      pursuit := some { c with
        stage := .searching, moveInFlight := true, rangeInFlight := false, centredCount := 0, readings := 0, heldReading := none
        fixWait := none, coastDeadline := none, search := some begun, nearSlot := none } }
    { azimuth := normAzimuth (centre.azimuth + step), elevation := centre.elevation }

/-- The state an end of the pursuit leaves when no other request stands: no context, an empty grant, the range request withdrawn, and HALT (R73, R76). -/
def beamFreed (t : State) : State :=
  { sentNothing t with
    pursuit := none
    arbiter := { t.arbiter with grant := none }
    ports := { t.ports with outstanding := none, latestMoveTag := none, driveOut := [.halt], rangeOut := [] } }

/-- The state a grant leaves at a free beam: the request, counted as an arrival, and the slew to its prediction (R48, R79, R88). -/
def beamGranted (t : State) (q : Request) (d : Direction) : State :=
  { movedTo t d with
    pursuit := some
      { target := q.handle, origin := q.origin, aimDirection := d, stage := .slewing, moveInFlight := true, rangeInFlight := false
        lastCaptured := none, latestIntensity := none, centredCount := 0, readings := 0, heldReading := none, fixWait := none
        coastDeadline := none, search := none, nearSlot := none, pendingMark := none }
    arbiter := { t.arbiter with grant := some q, arrivalCounter := t.arbiter.arrivalCounter + 1 } }

/-- The state an end of the pursuit leaves that passes the beam to a waiting request: its record slewed to its prediction, what the queue and the stack hold
without it, and the range request withdrawn (R48, R73, R88). -/
def beamPassed (t : State) (q : Request) (r : Record) (d : Direction) (queue : List QueueEntry) (stack : List Request) : State :=
  let u := beamGranted (t.withRecord q.handle { r with state := .active .slewing }) q d
  { u with
    arbiter := { t.arbiter with grant := some q, queue := queue, stack := stack }
    ports := { u.ports with outstanding := none } }

/-- A request put on top of the resume stack; the bottom entry of a full stack is dropped first, its record DORMANT with outcome DROPPED and the DROP notice
(R80, R91). -/
def stackPushed (t : State) (g : Request) : State :=
  let u : State :=
    match t.arbiter.stack[3]? with
    | none => t
    | some bottom =>
      match t.live bottom.handle with
      | none => t
      | some rb =>
        (t.withRecord bottom.handle { rb with state := .dormant, outcome := .dropped, notices := rb.notices ||| recordBit .drop }).judgeLine
  { u with arbiter := { u.arbiter with stack := g :: t.arbiter.stack.take 3 } }

/-- The state a preempted record is left in, its pursuit over: a REVISIT or INTERNAL request goes back to the queue with a new arrival number; a STATION or
PENDANT one goes on top of the resume stack if its record has auto-resume, and is dropped otherwise (R73, R90, R91, R92). -/
def setAside (t : State) (g : Request) (r : Record) (locked : Bool) : State :=
  let kept : Record := { r with lockLatch := if locked then false else r.lockLatch }
  if g.origin = .revisit ∨ g.origin = .internal then
    { t.withRecord g.handle { kept with state := .queued } with arbiter := { t.arbiter with
        queue := t.arbiter.queue ++ [{ request := g, arrival := t.arbiter.arrivalCounter }], arrivalCounter := t.arbiter.arrivalCounter + 1 } }
  else if r.autoResume then
    (stackPushed t g).withRecord g.handle { kept with state := .suspended }
  else
    (t.withRecord g.handle { kept with state := .dormant, outcome := .preempted, notices := r.notices ||| recordBit .drop }).judgeLine

/-- The state a preemption leaves: the record of the grant set aside, and the beam with the request that preempts (R89). -/
def beamTaken (t : State) (g : Request) (rg : Record) (locked : Bool) (q : Request) (r : Record) (d : Direction) : State :=
  let u := setAside t g rg locked
  beamPassed u q r d u.arbiter.queue u.arbiter.stack

/-! ### What an offer pass leaves -/

/-- The entry of a slot marked OFFERED, in its place (R104, R110). -/
def entryOffered (t : State) (i : Fin 48) : State :=
  { t with scheduler := { t.scheduler with entries := t.scheduler.entries.map fun e => if e.handle.slot = i then { e with status := .offered } else e } }

/-- The state an offer taken under a grant that it does not top leaves: the record QUEUED with a new entry, the revisit OFFERED (R87, R110). -/
def offerQueued (t : State) (h : Handle) (r : Record) : State :=
  { entryOffered (t.withRecord h { r with state := .queued }) h.slot with arbiter := { t.arbiter with
      queue := t.arbiter.queue ++ [{ request := requestOf h .revisit t.arbiter.priorities.revisit none, arrival := t.arbiter.arrivalCounter }]
      arrivalCounter := t.arbiter.arrivalCounter + 1 } }

/-- The state an offer taken at a free beam leaves: the record granted and slewed to its position, the revisit OFFERED (R87, R88, R110). -/
def offerGranted (t : State) (h : Handle) (r : Record) (d : Direction) : State :=
  beamGranted (entryOffered (t.withRecord h { r with state := .active .slewing }) h.slot) (requestOf h .revisit t.arbiter.priorities.revisit none) d

/-- The state an offer of a record without a position leaves: a miss, and the revisit due one period from now (R111). -/
def offerMissed (t : State) (h : Handle) (r : Record) : State :=
  (t.withRecord h { r with missCount := min 15 (r.missCount + 1), notices := r.notices ||| recordBit .miss }).judgeLine.placeEntry
    { handle := h, due := t.time.count + BitVec.ofNat 48 (r.period * 1000000), status := .scheduled }

/-- The state an offer pass over the DUE entries of a list leaves, where no offer tops the grant: a record that is not DORMANT is passed over, one without a
position is missed, and the pass ends at the first offer that finds the queue full (R87, R110, R111). -/
def offersMade : List RevisitEntry → State → State
  | [], t => t
  | e :: rest, t =>
    match t.live e.handle with
    | none => offersMade rest t
    | some r =>
      if r.state ≠ .dormant then offersMade rest t
      else
        match r.position with
        | none => offersMade rest (offerMissed t e.handle r)
        | some d =>
          if 12 ≤ t.arbiter.queue.length then t
          else offersMade rest (if t.arbiter.grant = none then offerGranted t e.handle r d else offerQueued t e.handle r)

/-- The DUE entries of a state's revisit list, in its order (R110). -/
def dueEntries (t : State) : List RevisitEntry := t.scheduler.entries.filter fun e => decide (e.status = .due)

/-- No REVISIT offer, and nothing that waits, tops the grant; with no grant nothing waits (R88, R89). -/
def OffersStayBelow (s : State) : Prop :=
  (s.arbiter.grant = none → s.arbiter.queue = [] ∧ s.arbiter.stack = [])
    ∧ ∀ g, s.arbiter.grant = some g → s.arbiter.priorities.revisit ≤ g.priority ∧ ∀ e ∈ s.arbiter.queue, e.request.priority ≤ g.priority

/-- A station command's answer with what the command sent to the instruments. -/
def answeredWith (s : State) (i : Instr) (r : Response) (t : State) : State := { answeredBy s i r t with ports := t.ports }

/-- The request that selection takes, and the queue and the stack without it: the highest priority; at equal priority the top of the stack, then the lowest
arrival number (R88). -/
def Selects (a : Arbiter) (q : Request) (queue : List QueueEntry) (stack : List Request) : Prop :=
  (a.stack = q :: stack ∧ queue = a.queue ∧ ∀ e ∈ a.queue, e.request.priority ≤ q.priority)
    ∨ stack = a.stack ∧ queue = a.queue.filter (fun x => decide (x.request.handle.slot ≠ q.handle.slot))
      ∧ (∀ t, a.stack.head? = some t → t.priority < q.priority)
      ∧ ∃ e ∈ a.queue, e.request = q
          ∧ ∀ x ∈ a.queue, x.request.priority < q.priority ∨ x.request.priority = q.priority ∧ e.arrival ≤ x.arrival

/-- No two entries of a queue share an arrival number or a slot (R79). -/
def QueueDistinct (l : List QueueEntry) : Prop := (l.map (·.arrival)).Nodup ∧ (l.map (·.request.handle.slot)).Nodup

/-- An event ends the pursuit of the record in a slot and leaves t, but for the beam: where nothing waits it is freed with HALT, else it passes to the request
that selection takes (R76, R88, R97). -/
def BeamGivenOn (i : Instr) (s t : State) (slot : Fin 48) : Prop :=
  (s.arbiter.queue = [] → s.arbiter.stack = [] → exec i s = .next (beamFreed t))
    ∧ ∀ q queue stack r d, Selects s.arbiter q queue stack → QueueDistinct s.arbiter.queue → q.handle.slot ≠ slot →
        s.live q.handle = some r → r.prediction q.aim s.now = some d → exec i s = .next (beamPassed t q r d queue stack)

/-- The part takes events, and the beam serves a live record: the grant, the context of its pursuit, and the record. -/
structure Pursuing (s : State) (g : Request) (c : Context) (r : Record) : Prop where
  up : s.resetnLow = false
  calm : s.scheduler.passWanted = false
  running : s.arbiter.runMode = .running
  grant : s.arbiter.grant = some g
  context : s.pursuit = some c
  target : c.target = g.handle
  origin : c.origin = g.origin
  record : s.live c.target = some r

/-- No other request stands, and no revisit offer can be made. -/
def NoOtherRequest (s : State) : Prop := NothingDue s ∧ s.arbiter.queue = [] ∧ s.arbiter.stack = []

/-- A frame passes the port's check (R122). -/
def FrameGood (f : Frame) : Prop := f.parityAgrees = true ∧ f.valid = true ∧ f.spotX.natAbs ≤ 4000 ∧ f.spotY.natAbs ≤ 4000

/-- The internal count has reached a deadline (log 2). -/
def DeadlineReached (s : State) (t : Time) : Prop := (s.time.count - t).toNat < 2 ^ 47

/-- The pendant may act on the record at an offset: the offset lies in the window, the slot holds a PENDANT-owned record, and its generation is the one
last reported (R196). -/
structure PendantHolds (s : State) (offset : Byte) (i : Fin 48) (r : Record) : Prop where
  up : s.resetnLow = false
  calm : s.scheduler.passWanted = false
  inWindow : offset.toNat < s.table.pendantWindow.length
  slot : i.val = s.table.pendantWindow.base + offset.toNat
  record : s.recordAt i = some r
  owner : r.owner = .pendant
  reported : s.pendant.reported[i.val] = some (s.slotAt i).generation

/-- What a good pendant frame does before its request: the silence deadline restarts, and an absent pendant becomes present with the PENDANT notice
(R194). -/
def heard (s : State) : State :=
  let t : State := { s with pendant :=
    { s.pendant with receiver := .hunting, present := true, silenceDeadline := some (s.time.count + 5000000#48) } }
  if s.pendant.present then t else t.setDeviceNotice .pendant

/-- A request's status frame formed on the state t it left and handed to the line (R194, R202). -/
def reportedBy (t : State) (kind : Byte) (a : Answer) (offset mark : Option Byte) : State :=
  t.sendStatus (t.statusFrame kind a offset mark)

/-! ### Ranges of values, in the rules' numbers -/

/-- A direction in the ranges of 1.3 and R84. -/
abbrev Direction.Fits (d : Direction) : Prop :=
  -3141592 ≤ d.azimuth ∧ d.azimuth ≤ 3141592 ∧ -1500000 ≤ d.elevation ∧ d.elevation ≤ 1500000

/-- The values of the Parameters group in the ranges of 1.3. -/
abbrev Parameters.Fits (p : Parameters) : Prop :=
  p.window ≤ 50000 ∧ p.coastTime ≤ 2000 ∧ p.fixInterval ≤ 10000 ∧ 1 ≤ p.searchRings ∧ p.searchRings ≤ 12
    ∧ 1000 ≤ p.searchLimit ∧ p.searchLimit ≤ 60000

/-- The six figures of a class entry in the ranges of R27. -/
abbrev ClassEntry.Fits (c : ClassEntry) : Prop :=
  c.sphereOffset ≤ 50000 ∧ 200 ≤ c.captureRadius ∧ c.captureRadius ≤ 20000 ∧ 20 ≤ c.centreRadius ∧ c.centreRadius ≤ 2000
    ∧ 1 ≤ c.minIntensity ∧ c.minIntensity ≤ 1023 ∧ 10 ≤ c.rangeAgreement ∧ c.rangeAgreement ≤ 5000
    ∧ 200 ≤ c.ringStep ∧ c.ringStep ≤ 10000

/-- A revisit period, off or in the range of R105. -/
abbrev PeriodFits (p : Nat) : Prop := p = 0 ∨ 10 ≤ p ∧ p ≤ 3600

/-- An allocation window of R8. -/
abbrev AllocWindow.Fits (w : AllocWindow) : Prop := 1 ≤ w.base ∧ w.base ≤ 47 ∧ 1 ≤ w.length ∧ w.length ≤ 47 ∧ w.base + w.length ≤ 48

/-! ### Directions, positions and windows, as the rules put them -/

/-- A number is a plain azimuth less whole turns, at most half a turn off 0: the normalised azimuth, the short way round (R32). -/
def ShortWay (plain n : Int) : Prop := n.natAbs ≤ 3141592 ∧ ∃ turns : Int, n = plain + turns * 6283185

/-- Two directions lie within a number of µrad of each other, in azimuth the short way round and in elevation (R32, R33, R35). -/
def Within (a b : Direction) (w : Nat) : Prop :=
  (∃ n, ShortWay (a.azimuth - b.azimuth) n ∧ n.natAbs ≤ w) ∧ (a.elevation - b.elevation).natAbs ≤ w

/-- The position of a fixed record: the direction of its reference, else of its last fix (R34). -/
def Record.StandsAt (r : Record) (d : Direction) : Prop :=
  r.kind ≠ .roving ∧ ((∃ ref, r.reference = some ref ∧ d = ref.direction) ∨ r.reference = none ∧ ∃ f, r.fix = some f ∧ d = f.direction)

/-- A slot holds a fixed record whose window has a centre and a half-width (R33, R34). -/
def HasWindow (s : State) (i : Fin 48) (d : Direction) (w : Nat) : Prop :=
  ∃ r, s.recordAt i = some r ∧ r.StandsAt d ∧ w = if r.params.window = 0 then s.classes[r.cls.val].captureRadius else r.params.window

/-- The windows of two slots overlap: the gaps are at most the sum of the half-widths (R35). -/
def WindowsOverlap (s : State) (i j : Fin 48) : Prop := ∃ d w e v, HasWindow s i d w ∧ HasWindow s j e v ∧ Within d e (w + v)

/-- A slot holds a fixed record with a reference (R35). -/
def HasReference (s : State) (i : Fin 48) : Prop := ∃ r, s.recordAt i = some r ∧ r.kind ≠ .roving ∧ r.reference ≠ none

/-- A direction lies in the window of a slot (R33, R42, R45). -/
def InWindowOf (s : State) (d : Direction) (i : Fin 48) : Prop := ∃ e w, HasWindow s i e w ∧ Within d e w

/-- A whole number is a number truncated toward zero: no larger, short of it by less than one, and of its sign (R69). -/
def TruncatesTo (x : ℝ) (z : Int) : Prop := |(z : ℝ)| ≤ |x| ∧ |x| < |(z : ℝ)| + 1 ∧ 0 ≤ z * x

/-! ### What the status answers carry, as the rules list it (log 6, log 7) -/

/-- The items of a grant: present, handle, origin, priority and state; absent (R101, R154). -/
def GrantItems (s : State) (l : List Byte) : Prop :=
  (∀ g r, s.arbiter.grant = some g → s.live g.handle = some r →
      l = [1, BitVec.ofNat 8 g.handle.slot.val, g.handle.generation, originCode g.origin, BitVec.ofNat 8 g.priority, stateCode (some r.state)])
    ∧ (s.arbiter.grant = none → l = [0, 0, 0, 0, 0, 0])

/-- The items of the sweep unit: in flight, its action, direction, next slot, remaining count and tallies; idle, the last result or none (R172). -/
def SweepItems (w : SweepUnit) (l : List Byte) : Prop :=
  (∀ x, w.inFlight = some x →
      l = [Config.sweepStateCode true, actionCode x.action, walkCode x.direction, BitVec.ofNat 8 x.next.val, BitVec.ofNat 8 x.remaining,
        BitVec.ofNat 8 x.acted, BitVec.ofNat 8 x.skipped])
    ∧ (∀ x, w.inFlight = none → w.lastResult = some x →
      l = [Config.sweepStateCode false, 1, Config.endCauseCode x.cause, actionCode x.action, BitVec.ofNat 8 x.acted, BitVec.ofNat 8 x.skipped])
    ∧ (w.inFlight = none → w.lastResult = none → l = [Config.sweepStateCode false, 0, 0, 0, 0, 0])

/-! ### What the beam's work never touches -/

/-- What a client sets up in a record, which no pursuit, grant, preemption, end or revisit changes. -/
structure RecordSetup where
  kind : Kind
  cls : Fin 8
  owner : Owner
  autoResume : Bool
  hold : Bool
  reference : Option Reference
  angleTolerance : Nat
  rangeTolerance : Nat
  params : Parameters
  period : Nat
  deriving DecidableEq, Repr

/-- The setup of a record. -/
def Record.setup (r : Record) : RecordSetup :=
  { kind := r.kind, cls := r.cls, owner := r.owner, autoResume := r.autoResume, hold := r.hold, reference := r.reference
    angleTolerance := r.angleTolerance, rangeTolerance := r.rangeTolerance, params := r.params, period := r.period }

/-- Every slot keeps its generation, and its record, if any, its setup. -/
def SameRecords (s t : State) : Prop :=
  ∀ i, (t.slotAt i).generation = (s.slotAt i).generation ∧ (t.recordAt i).map Record.setup = (s.recordAt i).map Record.setup

/-- Two states agree on everything that the arbiter, the pursuit unit and the scheduler never write: the pin, the classes, the time base, the sweep unit, the
station link but for SDO, the pendant link, the queue of commands, the windows, the priority table, the masks, two counters and the expected frame number;
and on the setup of every record. -/
structure SameSetup (s t : State) : Prop where
  pin : t.resetnLow = s.resetnLow
  classes : t.classes = s.classes
  time : t.time = s.time
  sweep : t.sweep = s.sweep
  link : t.link = s.link
  pendant : t.pendant = s.pendant
  pending : t.pending = s.pending
  stationWindow : t.table.stationWindow = s.table.stationWindow
  pendantWindow : t.table.pendantWindow = s.table.pendantWindow
  priorities : t.arbiter.priorities = s.arbiter.priorities
  recordMask : t.notices.recordMask = s.notices.recordMask
  deviceMask : t.notices.deviceMask = s.notices.deviceMask
  master : t.notices.master = s.notices.master
  frameRejects : t.notices.frameRejects = s.notices.frameRejects
  pendantErrors : t.notices.pendantErrors = s.notices.pendantErrors
  expectedFrame : t.ports.expectedFrame = s.ports.expectedFrame
  records : SameRecords s t

/-! ### Properties that every step keeps -/

/-- Slot 0 holds the HOME record, STATION-owned, with handle 0/0, and no other slot holds a HOME record (R3). -/
def HomeStays (s : State) : Prop :=
  (s.slotAt 0).generation = 0#8
    ∧ (∃ r, s.recordAt 0 = some r ∧ r.kind = .home ∧ r.owner = .station)
    ∧ ∀ i r, i ≠ 0 → s.recordAt i = some r → r.kind ≠ .home

/-- The NOTICE line tells whether the master enable is on and an unmasked kind is pending (R149). -/
def LineTellsCondition (s : State) : Prop := s.notices.line = (s.notices.master && s.anyPending)

/-- READY tells whether a response is pending (R182), and the buffer keeps at most 34 bytes (R175). -/
def LinkLegal (s : State) : Prop := s.link.ready = s.link.response.isSome ∧ s.link.received.length ≤ 34

/-- The allocation windows are windows (R8), and every PENDANT-owned record lies inside the pendant window (R7). -/
def WindowsLegal (s : State) : Prop :=
  s.table.stationWindow.Fits ∧ s.table.pendantWindow.Fits
    ∧ ∀ i r, s.recordAt i = some r → r.owner = .pendant → s.table.pendantWindow.contains i = true

/-- The class table and the priority table hold values of their ranges (R27, R82). -/
def TablesInRange (s : State) : Prop :=
  (∀ i : Fin 8, (s.classes[i.val]).Fits)
    ∧ s.arbiter.priorities.station ≤ 6 ∧ s.arbiter.priorities.pendant ≤ 6 ∧ s.arbiter.priorities.revisit ≤ 6

/-- A record's fields fit together: a ROVING record has no reference, no drift and no period, and any other no motion estimate (R4, R158, R16); fix overrun
stands only with fix pending (R21); the parameters and the period are in range (1.3, R105). -/
def Record.Legal (r : Record) : Prop :=
  (r.kind = .roving → r.reference = none ∧ r.drift = .none ∧ r.lastDeviation = none ∧ r.period = 0)
    ∧ (r.kind ≠ .roving → r.motion = none)
    ∧ (r.fixOverrun = true → r.fixPending = true)
    ∧ r.params.Fits ∧ PeriodFits r.period

/-- Every record's fields fit together. -/
def RecordsLegal (s : State) : Prop := ∀ i r, s.recordAt i = some r → r.Legal

/-- The beam: PARKED, the grant, the queue and the stack are empty (R99); a pursuit context exists exactly while there is a grant (R46); the queue holds at
most 12 entries (R79) and the stack at most 4 (R80); and no trigger of an offer pass is left over from an earlier event (R109). -/
def BeamLegal (s : State) : Prop :=
  (s.arbiter.runMode = .parked → s.arbiter.grant = none ∧ s.arbiter.queue = [] ∧ s.arbiter.stack = [])
    ∧ s.pursuit.isSome = s.arbiter.grant.isSome
    ∧ s.arbiter.queue.length ≤ 12 ∧ s.arbiter.stack.length ≤ 4
    ∧ s.scheduler.passWanted = false

/-- The revisit list holds at most 32 entries (R103), at most 4 status frames wait (R202), and the counters keep their ranges (R152). -/
def StoresBounded (s : State) : Prop :=
  s.scheduler.entries.length ≤ 32 ∧ s.pendant.waiting.length ≤ 4
    ∧ s.notices.falseReturns ≤ 65535 ∧ s.notices.rangeFailures ≤ 65535 ∧ s.notices.frameRejects ≤ 65535 ∧ s.notices.pendantErrors ≤ 255

/-- A record's state and the collections agree: QUEUED with an entry in the queue, SUSPENDED with one on the stack, active with the grant, and every entry,
and the grant, names a live record in that state (R79, R80, R81). -/
def StatesAgree (s : State) : Prop :=
  (∀ e ∈ s.arbiter.queue, ∃ r, s.live e.request.handle = some r ∧ r.state = .queued)
    ∧ (∀ q ∈ s.arbiter.stack, ∃ r, s.live q.handle = some r ∧ r.state = .suspended)
    ∧ (∀ c, s.pursuit = some c → ∃ r, s.live c.target = some r ∧ r.state = .active c.stage)
    ∧ (∀ g c, s.arbiter.grant = some g → s.pursuit = some c → c.target = g.handle ∧ c.origin = g.origin)
    ∧ (∀ i r, s.recordAt i = some r → r.state = .queued → ∃ e ∈ s.arbiter.queue, e.request.handle = s.handleOf i)
    ∧ (∀ i r, s.recordAt i = some r → r.state = .suspended → ∃ q ∈ s.arbiter.stack, q.handle = s.handleOf i)
    ∧ (∀ i r st, s.recordAt i = some r → r.state = .active st → ∃ g, s.arbiter.grant = some g ∧ g.handle = s.handleOf i)
    ∧ (s.arbiter.queue.map (·.request.handle.slot)).Nodup ∧ (s.arbiter.stack.map (·.handle.slot)).Nodup

/-- The order of the revisit list: due time ascending, ties by slot ascending (R103); the due times are compared as numbers (log 13). -/
def ListBefore (a b : RevisitEntry) : Prop := a.due.toNat < b.due.toNat ∨ a.due = b.due ∧ a.handle.slot < b.handle.slot

/-- The revisit list: in its order (log 13), no record twice, each entry that of a live fixed record with a nonzero period, and each such record with an entry
(R103, R105, R106, R107). -/
def ListLegal (s : State) : Prop :=
  s.scheduler.entries.Pairwise ListBefore ∧ (s.scheduler.entries.map (·.handle.slot)).Nodup
    ∧ (∀ e ∈ s.scheduler.entries, ∃ r, s.live e.handle = some r ∧ r.kind ≠ .roving ∧ r.period ≠ 0)
    ∧ ∀ i r, s.recordAt i = some r → r.period ≠ 0 → ∃ e ∈ s.scheduler.entries, e.handle = s.handleOf i

/-- An OFFERED entry's record has a REVISIT request, in the queue or holding the grant (R104). -/
def OffersStand (s : State) : Prop :=
  ∀ e ∈ s.scheduler.entries, e.status = .offered →
    (∃ x ∈ s.arbiter.queue, x.request.handle = e.handle ∧ x.request.origin = .revisit)
      ∨ ∃ g, s.arbiter.grant = some g ∧ g.handle = e.handle ∧ g.origin = .revisit

/-- Selection and the preemption test leave nothing undone: with an empty grant nothing waits, and no queued priority is above the grant's (R88, R89);
and the arrival numbers differ and lie below the counter (R79). -/
def SelectionDone (s : State) : Prop :=
  (s.arbiter.grant = none → s.arbiter.queue = [] ∧ s.arbiter.stack = [])
    ∧ (∀ g, s.arbiter.grant = some g → ∀ e ∈ s.arbiter.queue, e.request.priority ≤ g.priority)
    ∧ (s.arbiter.queue.map (·.arrival)).Nodup ∧ (∀ e ∈ s.arbiter.queue, e.arrival < s.arbiter.arrivalCounter)
    ∧ s.arbiter.arrivalCounter ≤ 65535

end Sys2Proof.Machine
end

