-- ==== Sys2Proof/WellFormed.lean ====
section
/-! DEFINITION. Which terms of Instr are commands the world can send: the ranges the manual gives to what a frame, a message or a transaction carries. -/

namespace Sys2Proof

/-- The range of a frame's intensity (R121). -/
def Frame.wellFormed (f : Frame) : Bool := decide (f.intensity ≤ 1023)

/-- What makes a pendant frame an error of its kind (R192, R193). -/
def PendantError.wellFormed : PendantError → Bool
  | .badStopBit => true
  | .lineBreak => true
  | .oversizeLength n => decide (12 < n.toNat)
  | .checkMismatch body check =>
      decide ((body.getD 0 0#8).toNat ≤ 12) && decide (body.length = (body.getD 0 0#8).toNat + 2) && decide (pendantCheck body ≠ check)
  | .unknownKind kind payload => decide (payload.length ≤ 12) && (pendantRequest kind payload).isNone

/-- A pendant frame carries at most 12 payload bytes (R192). -/
def pendantPayload (payload : List Byte) : Bool := decide (payload.length ≤ 12)

/-- A command the world can send. -/
def Instr.wellFormed (i : Instr) : Bool :=
  match i with
  | .emptyTransaction clocks => decide (clocks < 8)
  | .badframe bytes => decide (transactionOf bytes = .badframe bytes)
  | .unknown code payload => decide (code ≠ 0#8) && !commandCodes.contains code && decide (payload.length ≤ 30)
  | .setHold _ _ selector _ => decide (selector ≠ 3#8)
  | .detectorFrame f => f.wellFormed
  | .reading _ distance => decide (distance ≤ 80000000)
  | .pendantFrameError e => e.wellFormed
  | .poll p => pendantPayload p
  | .claimNew p => pendantPayload p
  | .find p => pendantPayload p
  | .letGo p => pendantPayload p
  | .holdOn p => pendantPayload p
  | .holdOff p => pendantPayload p
  | .mark p => pendantPayload p
  | .drop p => pendantPayload p
  | _ => true

end Sys2Proof
end

