-- ==== Sys2Proof/Certificates/Slice0/Obligations.lean ====
section
/-! DEFINITION. The statements for the provers. In a statement about one command, up says that RESETN is high; answeredBy s c r t is the state a station
command c leaves when its own changes make t of s and its response is r. -/

open Sys2Proof Sys2Proof.Machine

/-! ### The machine as a whole -/

/-- A step takes the command at the front of the queue and runs it on the state with the queue's rest. -/
def Obligations.StepRunsFrontCommand : Prop :=
  ∀ (c : Instr) (rest : List Instr) (s : State), step (s.setPending (c :: rest)) = exec c (s.setPending rest)

/-- With no command waiting: nothing happens while RESETN is low; else the first of the part's own deadlines that the internal count has reached expires, in
the order range, coast, search, fix wait, due time, silence; else a sweep in flight makes a step; else the internal count grows by one (R140). The order and
the tick on an empty queue are the model's choice (log 1), and what a deadline's being reached is, log 2. -/
def Obligations.IdleStep : Prop :=
  ∀ (s : State), s.pending = [] →
    let range := ∃ q, s.ports.outstanding = some q ∧ DeadlineReached s q.deadline
    let coast := ∃ c d, s.pursuit = some c ∧ c.coastDeadline = some d ∧ DeadlineReached s d
    let search := ∃ c sr, s.pursuit = some c ∧ c.search = some sr ∧ DeadlineReached s sr.deadline
    let wait := ∃ c d, s.pursuit = some c ∧ c.fixWait = some d ∧ DeadlineReached s d
    let due := ∃ e ∈ s.scheduler.entries, e.status = .scheduled ∧ DeadlineReached s e.due
    let silence := ∃ d, s.pendant.silenceDeadline = some d ∧ DeadlineReached s d
    (s.resetnLow = true → step s = .next s)
      ∧ (s.resetnLow = false →
          (range → step s = exec .rangeTimeout s)
          ∧ (¬range → coast → step s = exec .coastDeadlineExpiry s)
          ∧ (¬range → ¬coast → search → step s = exec .searchDeadlineExpiry s)
          ∧ (¬range → ¬coast → ¬search → wait → step s = exec .fixWaitExpiry s)
          ∧ (¬range → ¬coast → ¬search → ¬wait → due → step s = exec .dueTimeExpiry s)
          ∧ (¬range → ¬coast → ¬search → ¬wait → ¬due → silence → step s = exec .pendantSilenceExpiry s)
          ∧ (¬range → ¬coast → ¬search → ¬wait → ¬due → ¬silence →
              (s.sweep.inFlight ≠ none → step s = exec .sweepStep s)
              ∧ (s.sweep.inFlight = none → step s = .next { s with time := { s.time with count := s.time.count + 1 } })))

/-- Every command completes in every state, and leaves the queue of commands alone. -/
def Obligations.EveryCommandCompletes : Prop := ∀ (c : Instr) (s : State), ∃ t, exec c s = .next t ∧ t.pending = s.pending

/-! ### The reset pin -/

/-- The power-on condition of every block while RESETN is low: the target table with the HOME record (R24), the class table (R27), no pursuit, the arbiter
and its priority table (R78), the scheduler (R103), the ports (R136), the time base (R140, R141), the notice unit (R156), the sweep unit (R163), the station
link (R175) and the pendant link (R204). No command but the pin's rise has an effect (log 4), but that a transaction shifts out zeros (R175). The first
UNPARK after the rise finds no HOME reference and leaves the part RUNNING with nothing granted (R24). The fields of log 5, log 11 and log 15 are the model's. -/
def Obligations.PowerOnCondition : Prop :=
  let home : Record :=
    { kind := .home, cls := 0, owner := .station, state := .dormant, outcome := .none, autoResume := false, hold := false
      fix := none, sequence := 0, fixPending := false, fixOverrun := false, motion := none, reference := none
      angleTolerance := 100, rangeTolerance := 200, drift := .none, lastDeviation := none
      params := { window := 0, coastTime := 300, fixInterval := 0, searchRings := 6, searchLimit := 15000 }
      period := 0, missCount := 0, breaks := 0, searches := 0, ambiguities := 0, lockLatch := false, notices := 0 }
  ∀ (s : State), ∃ t, exec .resetnLow s = .next t ∧ t.resetnLow = true ∧ t.pending = s.pending
    ∧ (∀ i : Fin 48, i ≠ 0 → t.slotAt i = { generation := 0, record := none })
    ∧ t.slotAt 0 = { generation := 0, record := some home }
    ∧ t.entryAt 0 = none
    ∧ t.table.stationWindow = { base := 1, length := 47 } ∧ t.table.pendantWindow = { base := 40, length := 8 }
    ∧ (∀ c : Fin 8, t.classes[c.val] =
        { sphereOffset := 0, captureRadius := 2500, centreRadius := 150, minIntensity := 64, rangeAgreement := 200, ringStep := 1500 })
    ∧ t.pursuit = none
    ∧ t.arbiter =
        { queue := [], stack := [], grant := none, priorities := { station := 4, pendant := 5, revisit := 3 }, runMode := .parked
          arrivalCounter := 0 }
    ∧ t.scheduler = { entries := [], frozen := true, passWanted := false }
    ∧ t.ports =
        { expectedFrame := none, nextMoveTag := 0, latestMoveTag := none, nextRangeTag := 0, outstanding := none, driveOut := [], rangeOut := [] }
    ∧ t.time = { count := 0, offset := 0 }
    ∧ t.notices =
        { device := 0, recordMask := 0, deviceMask := 0, master := false, falseReturns := 0, rangeFailures := 0, frameRejects := 0
          pendantErrors := 0, line := false }
    ∧ t.sweep = { inFlight := none, lastResult := none }
    ∧ t.link = { received := [], more := false, response := none, ready := false, sdo := [], sdoNext := 0 }
    ∧ t.pendant.receiver = .hunting ∧ t.pendant.present = false ∧ t.pendant.silenceDeadline = none ∧ t.pendant.markCounter = 0
    ∧ (∀ i : Fin 48, t.pendant.reported[i.val] = none) ∧ t.pendant.sending = none ∧ t.pendant.waiting = [] ∧ t.pendant.inBreak = false
    ∧ (∀ c, c ≠ .resetnRise → exec c t = .next { t with link := { t.link with sdo := List.replicate (clocksOf c) false } })
    ∧ ∃ u v, exec .resetnRise t = .next u ∧ exec .unpark u = .next v ∧ answersPlainly v .ok ∧ v.arbiter.runMode = .running
        ∧ v.arbiter.queue = [] ∧ v.arbiter.grant = none ∧ v.pursuit = none

/-- While RESETN is low no other command has an effect (log 4), but that a transaction's clocks shift out zeros (R175); its rise sends HALT and changes
nothing else; a rise while it is high is none (log 4). -/
def Obligations.ResetnPin : Prop :=
  ∀ (s : State),
    (s.resetnLow = true → ∀ c, c ≠ .resetnLow → c ≠ .resetnRise → exec c s = .next { sentNothing s with
        link := { s.link with sdo := List.replicate (clocksOf c) false, sdoNext := 0 } })
      ∧ (s.resetnLow = true → exec .resetnRise s = .next { sentNothing s with
          resetnLow := false
          ports := { s.ports with latestMoveTag := none, driveOut := [.halt], rangeOut := [] } })
      ∧ (s.resetnLow = false → exec .resetnRise s = .next s)

/-! ### The station link -/

/-- R177: a read shifts out the response, each byte most significant bit first, then 0x00, ignores the bytes clocked in after the first, and consumes a
response shifted out whole. -/
def Obligations.ReadFetchesResponse : Prop :=
  ∀ (s : State) (rest : List Byte), s.resetnLow = false →
    ∃ t, exec (.readTransaction rest) s = .next t
      ∧ t.link.sdo.length = 8 * (rest.length + 1)
      ∧ (∀ r, s.link.response = some r →
          (∀ n b, n ≤ rest.length → b < 8 → t.link.sdo[8 * n + b]? = some ((r.bytes.getD n 0).getMsbD b))
            ∧ t.link.sdoNext = r.bytes.getD (rest.length + 1) 0
            ∧ r.bytes.head? ≠ some 0#8
            ∧ (r.bytes.length ≤ rest.length + 1 → t.link.response = none ∧ t.link.ready = false)
            ∧ (rest.length + 1 < r.bytes.length → t.link.response = some r ∧ t.link.ready = s.link.ready))
      ∧ (s.link.response = none →
          t.link.sdo = List.replicate (8 * (rest.length + 1)) false ∧ t.link.sdoNext = 0 ∧ t.link.response = none ∧ t.link.ready = s.link.ready)
      ∧ (∀ rest', rest'.length = rest.length →
          ∃ u, exec (.readTransaction rest') s = .next u ∧ { u with link := { u.link with received := t.link.received } } = t)
      ∧ { t with link := s.link } = { sentNothing s with link := s.link }

/-- An empty transaction keeps a pending response and shifts out its first bits (R176); a bad or unknown frame discards it, is answered, and reaches no block
(R178); every other transaction has eight clocks for each byte (log 16). -/
def Obligations.TransactionsThatReachNoBlock : Prop :=
  ∀ (s : State), s.resetnLow = false →
    (∀ n, ∃ t, exec (.emptyTransaction n) s = .next t
        ∧ { t with link := s.link } = { sentNothing s with link := s.link }
        ∧ t.link.received = [] ∧ t.link.more = false ∧ t.link.response = s.link.response ∧ t.link.ready = s.link.ready
        ∧ t.link.sdo.length = n
        ∧ (∀ r b, s.link.response = some r → b < n → b < 8 → t.link.sdo[b]? = some ((r.bytes.getD 0 0).getMsbD b))
        ∧ (s.link.response = none → t.link.sdo = List.replicate n false))
      ∧ (∀ bytes, exec (.badframe bytes) s = .next (answeredBy s (.badframe bytes) (noPayload .badFrame) s))
      ∧ (∀ code payload, exec (.unknown code payload) s = .next (answeredBy s (.unknown code payload) (noPayload .unknown) s))
      ∧ ∀ c bytes, transactionBytes c = some bytes → (∀ n, c ≠ .emptyTransaction n) → clocksOf c = 8 * bytes.length

/-- The frames that the manual writes out, on both links, are the commands and the responses it says; the forms of the two links' frames and the order of a
value's bytes (R181, R183, R203); every row of the command code table, its payload in the order its entry names the values, a code not listed being
UNKNOWN and a listed code with an unlisted length BADFRAME (R184, R190); the answer codes, all sixteen (9.5, R203); the request kinds of 10.6; and the codes
of values of 9.5, written and read, with the bits of the notice kinds (R143, R145). The manual pictures neither PURSUE's payload nor WINDOWS': that PURSUE's
flag byte stands after the handle, before the priority and the aim, and that WINDOWS carries the selector, then the station window, then the pendant
window, is the model's choice (log 8). -/
def Obligations.FramesOfTheManual : Prop :=
  let sent (c : Instr) (code : Byte) (payload : List Byte) := transactionBytes c = some (linkFrame code payload)
  let lengths : List (Byte × List Nat) :=
    [(0x10, [2]), (0x11, [2]), (0x12, [3]), (0x13, [4, 3, 12, 21]), (0x14, [4]), (0x15, [2]), (0x16, [2]), (0x17, [5]), (0x20, [1, 13]), (0x21, [3]),
      (0x30, [12]), (0x31, [2]), (0x32, [1, 2]), (0x33, [0]), (0x34, [0]), (0x35, [0]), (0x40, [4]), (0x41, [1]), (0x50, [0, 8]), (0x51, [0]),
      (0x60, [0, 3]), (0x61, [0]), (0x62, [0]), (0x70, [9]), (0x71, [10]), (0x72, [0]), (0x73, [0]), (0x7F, [0])]
  transactionOf [0x33#8, 0x00#8, 0xC6#8] = .park
    ∧ transactionOf [0x33#8, 0x00#8, 0xC7#8] = .badframe [0x33#8, 0x00#8, 0xC7#8]
    ∧ transactionOf [0x0A#8, 0x00#8, 0x82#8] = .unknown 0x0A#8 []
    ∧ transactionOf [0x00#8, 0x00#8, 0x00#8] = .readTransaction [0x00#8, 0x00#8]
    ∧ (noPayload .ok).bytes = [0x01#8, 0x00#8, 0x15#8]
    ∧ (noPayload .already).bytes = [0x02#8, 0x00#8, 0x2A#8]
    ∧ (noPayload .badFrame).bytes = [0x03#8, 0x00#8, 0x3F#8]
    ∧ (noPayload .unknown).bytes = [0x04#8, 0x00#8, 0x54#8]
    ∧ receiveBytes .hunting [0xA7#8, 0x01#8, 0x01#8, 0x02#8, 0x02#8] = (.hunting, [.poll [2#8]])
    ∧ receiveBytes .hunting [0xA7#8, 0x01#8, 0x03#8, 0x00#8, 0x02#8] = (.hunting, [.find [0#8]])
    ∧ receiveBytes .hunting [0xA7#8, 0x00#8, 0x02#8, 0x02#8] = (.hunting, [.claimNew []])
    ∧ receiveBytes .hunting [0xA7#8, 0x01#8, 0x04#8, 0x00#8, 0x05#8] = (.hunting, [.letGo [0#8]])
    ∧ receiveBytes .hunting [0xA7#8, 0x01#8, 0x05#8, 0x00#8, 0x04#8] = (.hunting, [.holdOn [0#8]])
    ∧ receiveBytes .hunting [0xA7#8, 0x01#8, 0x06#8, 0x00#8, 0x07#8] = (.hunting, [.holdOff [0#8]])
    ∧ receiveBytes .hunting [0xA7#8, 0x01#8, 0x07#8, 0x00#8, 0x06#8] = (.hunting, [.mark [0#8]])
    ∧ receiveBytes .hunting [0xA7#8, 0x01#8, 0x08#8, 0x00#8, 0x09#8] = (.hunting, [.drop [0#8]])
    ∧ (∀ (first : Byte) (payload : List Byte), linkFrame first payload
        = first :: BitVec.ofNat 8 payload.length :: payload ++ [crc8 (first :: BitVec.ofNat 8 payload.length :: payload)])
    ∧ (∀ (a : Answer) (payload : List Byte), ({ status := a, payload := payload } : Response).bytes = linkFrame (answerCode a) payload)
    ∧ (∀ (kind : Byte) (payload : List Byte), pendantFrame kind payload = 0xA7#8 :: BitVec.ofNat 8 payload.length :: kind :: payload
        ++ [payload.foldl (· ^^^ ·) (BitVec.ofNat 8 payload.length ^^^ kind)])
    ∧ (∀ v : BitVec 16, bytes2 v = [v.extractLsb' 0 8, v.extractLsb' 8 8])
    ∧ (∀ v : BitVec 32, bytes4 v = [v.extractLsb' 0 8, v.extractLsb' 8 8, v.extractLsb' 16 8, v.extractLsb' 24 8])
    ∧ (∀ v : BitVec 48, bytes6 v = (List.range 6).map fun n => v.extractLsb' (8 * n) 8)
    ∧ (∀ v : BitVec 64, bytes8 v = (List.range 8).map fun n => v.extractLsb' (8 * n) 8)
    ∧ [Answer.ok, .already, .badFrame, .unknown, .range, .stale, .vacant, .owner, .busy, .full, .kind, .overlap, .parked, .noAim, .home,
        .notLocked].map answerCode = [0x01, 0x02, 0x03, 0x04, 0x05, 0x06, 0x07, 0x08, 0x09, 0x0A, 0x0B, 0x0C, 0x0D, 0x0E, 0x0F, 0x10]
    ∧ (∀ (a b x y : Byte), sent (.create a b) 0x10 [a, b] ∧ sent (.retire a b) 0x11 [a, b] ∧ sent (.read a b x) 0x12 [a, b, x]
        ∧ sent (.setReferenceRemoval a b x) 0x13 [a, b, x] ∧ sent (.setHold a b x y) 0x13 [a, b, x, y] ∧ sent (.setAutoResume a b y) 0x13 [a, b, 3, y]
        ∧ sent (.changeKind a b x y) 0x14 [a, b, x, y] ∧ sent (.take a b) 0x15 [a, b] ∧ sent (.give a b) 0x16 [a, b]
        ∧ (∀ z, sent (.windows z a b x y) 0x17 [z, a, b, x, y]) ∧ sent (.classEntryRead a) 0x20 [a] ∧ sent (.changeClass a b x) 0x21 [a, b, x]
        ∧ sent (.release a b) 0x31 [a, b] ∧ sent (.priorityRead a) 0x32 [a] ∧ sent (.priorityWrite a b) 0x32 [a, b]
        ∧ sent (.revisitEntry a) 0x41 [a] ∧ sent (.noticeControlWrite a b x) 0x60 [a, b, x])
    ∧ (∀ (a b x n : Byte) (p q r t u v : BitVec 16) (az el rg rt : BitVec 32),
        sent (.setParameters a b x p q r n t) 0x13 ([a, b, x] ++ bytes2 p ++ bytes2 q ++ bytes2 r ++ [n] ++ bytes2 t)
          ∧ sent (.setReference a b x az el rg p rt) 0x13 ([a, b, x] ++ bytes4 az ++ bytes4 el ++ bytes4 rg ++ bytes2 p ++ bytes4 rt)
          ∧ sent (.classEntryWrite a p q r t u v) 0x20 ([a] ++ bytes2 p ++ bytes2 q ++ bytes2 r ++ bytes2 t ++ bytes2 u ++ bytes2 v)
          ∧ sent (.pursue a b x n az el) 0x30 ([a, b, x, n] ++ bytes4 az ++ bytes4 el) ∧ sent (.setRevisit a b p) 0x40 ([a, b] ++ bytes2 p))
    ∧ (∀ (a d n x : Byte) (v : BitVec 64) (states : BitVec 16) (kinds owners qualifiers outcome : Byte),
        let cond : ConditionBytes := { states := states, kinds := kinds, owners := owners, qualifiers := qualifiers, outcome := outcome }
        sent (.syncWrite v) 0x50 (bytes8 v)
          ∧ sent (.scan a d n cond) 0x70 ([a, d, n] ++ bytes2 states ++ [kinds, owners, qualifiers, outcome])
          ∧ sent (.sweep a d n cond x) 0x71 ([a, d, n] ++ bytes2 states ++ [kinds, owners, qualifiers, outcome] ++ [x]))
    ∧ sent .park 0x33 [] ∧ sent .unpark 0x34 [] ∧ sent .beamStatus 0x35 [] ∧ sent .syncRead 0x50 [] ∧ sent .portStatus 0x51 []
    ∧ sent .noticeControlRead 0x60 [] ∧ sent .nextNotice 0x61 [] ∧ sent .deviceStatus 0x62 [] ∧ sent .sweepStatus 0x72 [] ∧ sent .sweepStop 0x73 []
    ∧ sent .reset 0x7F []
    ∧ (∀ (code : Byte) (payload : List Byte), code ≠ 0 → code ∉ lengths.map (·.1) → payload.length ≤ 30 →
        transactionOf (linkFrame code payload) = .unknown code payload)
    ∧ (∀ x ∈ lengths, ∀ payload : List Byte, payload.length ∉ x.2 → payload.length ≤ 30 →
        transactionOf (linkFrame x.1 payload) = .badframe (linkFrame x.1 payload))
    ∧ [none, some .dormant, some .queued, some .suspended, some (.active .slewing), some (.active .centring), some (.active .ranging),
        some (.active .locked), some (.active .coasting), some (.active .searching)].map stateCode = [0, 1, 2, 3, 4, 5, 6, 7, 8, 9]
    ∧ [EndOutcome.none, .released, .done, .lost, .fault, .preempted, .dropped, .parked].map outcomeCode = [0, 1, 2, 3, 4, 5, 6, 7]
    ∧ [Kind.home, .roving, .nest].map kindCode = [0, 1, 2] ∧ [Owner.station, .pendant].map ownerCode = [0, 1]
    ∧ [Origin.station, .pendant, .revisit, .internal].map originCode = [0, 1, 2, 3] ∧ [WalkDirection.up, .down].map walkCode = [0, 1]
    ∧ [SweepAction.release, .retire, .revisitOff, .holdOn, .holdOff].map actionCode = [0, 1, 2, 3, 4]
    ∧ [Group.identity, .fix, .motion, .reference, .parameters, .revisit, .statistics, .status].map groupCode = [0, 1, 2, 3, 4, 5, 6, 7]
    ∧ [RecordNotice.fix, .lock, .break, .lost, .drift, .ambig, .drop, .miss].map recordBit = [0x01, 0x02, 0x04, 0x08, 0x10, 0x20, 0x40, 0x80]
    ∧ [DeviceNotice.falseReturn, .drive, .range, .pendant, .link, .sweep, .home].map deviceBit = [0x01, 0x02, 0x04, 0x08, 0x10, 0x20, 0x40]
    ∧ (∀ b x, kindOf b = some x ↔ kindCode x = b) ∧ (∀ b x, originOf b = some x ↔ originCode x = b) ∧ (∀ b x, groupOf b = some x ↔ groupCode x = b)
    ∧ (∀ b x, walkOf b = some x ↔ walkCode x = b) ∧ (∀ b x, actionOf b = some x ↔ actionCode x = b)
    ∧ ∀ b x, outcomeOf b = some x ↔ outcomeCode x = b

/-- Every well-formed station command's transaction is read as that command, with every operand. -/
def Obligations.CommandsReadBack : Prop :=
  ∀ (c : Instr) (bytes : List Byte), c.wellFormed = true → transactionBytes c = some bytes → (∀ n, c ≠ .emptyTransaction n) →
    transactionOf bytes = c

/-- Every transaction is a well-formed command, and that command's bytes are the transaction's. -/
def Obligations.TransactionsReadBack : Prop :=
  ∀ (bytes : List Byte), (transactionOf bytes).wellFormed = true ∧ transactionBytes (transactionOf bytes) = some bytes

/-- A pendant request's frame is received as that request; with another check byte it is a check mismatch (R192). -/
def Obligations.PendantFramesReadBack : Prop :=
  ∀ (c : Instr) (kind : Byte) (payload : List Byte), pendantKindOf c = some (kind, payload) → payload.length ≤ 12 →
    receiveBytes .hunting (pendantFrame kind payload) = (.hunting, [c])
      ∧ ∀ check, check ≠ pendantCheck (BitVec.ofNat 8 payload.length :: kind :: payload) →
          receiveBytes .hunting (0xA7#8 :: BitVec.ofNat 8 payload.length :: kind :: payload ++ [check])
            = (.hunting, [.pendantFrameError (.checkMismatch (BitVec.ofNat 8 payload.length :: kind :: payload) check)])

/-! ### The target table -/

/-- The handle checks in their order (R2), the OWNER check after them (R6), and the refusals they make, which change nothing. A SET whose selector is not that
of its form is RANGE (log 9), and so are an undefined kind and an undefined group, before the handle checks (R9, log 22). A VACANT slot answers VACANT
whatever generation the handle carries, as R2 says, also a READ of which R151 says STALE (log 23). -/
def Obligations.HandleChecksRefuse : Prop :=
  ∀ (s : State) (slot gen x y : Byte) (period w c f l at_ : BitVec 16) (az el range rt : BitVec 32), s.resetnLow = false →
    s.scheduler.passWanted = false →
    let parameters (k : Byte) := Instr.setParameters slot gen k w c f x l
    let reference (k : Byte) := Instr.setReference slot gen k az el range at_ rt
    let removal (k : Byte) := Instr.setReferenceRemoval slot gen k
    let refuses (a : Answer) (i : Instr) := exec i s = .next (answeredBy s i (noPayload a) s)
    (48 ≤ slot.toNat → s.lookup slot gen = .error .range)
      ∧ (∀ i : Fin 48, i.val = slot.toNat → s.recordAt i = none → s.lookup slot gen = .error .vacant)
      ∧ (∀ (i : Fin 48) r, i.val = slot.toNat → s.recordAt i = some r → (s.slotAt i).generation ≠ gen → s.lookup slot gen = .error .stale)
      ∧ (∀ (i : Fin 48) r, i.val = slot.toNat → s.recordAt i = some r → (s.slotAt i).generation = gen →
          s.lookup slot gen = .ok ({ slot := i, generation := gen }, r))
      ∧ (∀ a, s.lookup slot gen = .error a →
          (∀ i ∈ [Instr.retire slot gen, .setHold slot gen 2 x, .setAutoResume slot gen x, .take slot gen, .give slot gen,
            .changeClass slot gen x, .setRevisit slot gen period, .pursue slot gen x y az el, .release slot gen, parameters 0, reference 1,
            removal 1], refuses a i)
          ∧ (x.toNat ≤ 7 → refuses a (.read slot gen x)) ∧ (x.toNat ≤ 2 → y.toNat ≤ 2 → refuses a (.changeKind slot gen x y)))
      ∧ (∀ h r, s.lookup slot gen = .ok (h, r) → r.owner = .pendant →
          (∀ i ∈ [Instr.retire slot gen, .setHold slot gen 2 x, .setAutoResume slot gen x, .changeClass slot gen x, .setRevisit slot gen period,
            parameters 0, reference 1, removal 1], refuses .owner i)
          ∧ (x.toNat ≤ 2 → y.toNat ≤ 2 → refuses .owner (.changeKind slot gen x y)))
      ∧ (∀ k : Byte, (k ≠ 0 → refuses .range (parameters k)) ∧ (k ≠ 1 → refuses .range (reference k) ∧ refuses .range (removal k))
          ∧ (k ≠ 2 → refuses .range (.setHold slot gen k x)))
      ∧ (2 < x.toNat ∨ 2 < y.toNat → refuses .range (.changeKind slot gen x y))
      ∧ (7 < x.toNat → refuses .range (.read slot gen x))

/-- CREATE takes the lowest VACANT slot of the station window under its generation and makes the record of 1.3 there; its refusals change nothing (R10). -/
def Obligations.CreateMakesRecord : Prop :=
  let made (k : Kind) (c : Fin 8) : Record :=
    { kind := k, cls := c, owner := .station, state := .dormant, outcome := .none, autoResume := decide (k = .roving)
      hold := false, fix := none, sequence := 0, fixPending := false, fixOverrun := false, motion := none, reference := none
      angleTolerance := 100, rangeTolerance := 200, drift := .none, lastDeviation := none
      params := { window := 0, coastTime := 300, fixInterval := 0, searchRings := 6, searchLimit := 15000 }
      period := 0, missCount := 0, breaks := 0, searches := 0, ambiguities := 0, lockLatch := false, notices := 0 }
  ∀ (s : State) (kind cls : Byte), s.resetnLow = false →
    (kind = 0 → exec (.create kind cls) s = .next (answeredBy s (.create kind cls) (noPayload .home) s))
      ∧ (kind ≠ 0 → (2 < kind.toNat ∨ 7 < cls.toNat) →
          exec (.create kind cls) s = .next (answeredBy s (.create kind cls) (noPayload .range) s))
      ∧ ∀ k : Kind, (kind = 1 ∧ k = .roving ∨ kind = 2 ∧ k = .nest) → ∀ c : Fin 8, c.val = cls.toNat →
          ((∀ i, s.table.stationWindow.contains i = true → s.recordAt i ≠ none) →
            exec (.create kind cls) s = .next (answeredBy s (.create kind cls) (noPayload .full) s))
          ∧ ∀ i : Fin 48, s.table.stationWindow.contains i = true → s.recordAt i = none →
            (∀ j, j < i → s.table.stationWindow.contains j = true → s.recordAt j ≠ none) →
            exec (.create kind cls) s = .next
              (answeredBy s (.create kind cls) (okPayload [BitVec.ofNat 8 i.val, (s.slotAt i).generation])
                (s.setSlot i { generation := (s.slotAt i).generation, record := some (made k c) }))

/-- RETIRE: HOME for slot 0; else the slot is VACANT with its generation incremented and the revisit entry gone, in every state of the record, and no other
record's setup, no class, no time, no mask and no sweep changes; a DORMANT record's RETIRE does nothing else but judge the line (R11); with no revisit DUE,
a QUEUED or SUSPENDED record's entry is removed, and a granted record's pursuit ends, the beam passing to the request that selection takes, or HALT being
sent where nothing waits (R95). -/
def Obligations.RetireEndsRecord : Prop :=
  ∀ (s : State) (slot gen : Byte) (h : Handle) (r : Record), s.resetnLow = false → s.lookupOwned slot gen = .ok (h, r) →
    let i := Instr.retire slot gen
    let gone := ((s.removeEntry h.slot).setSlot h.slot { generation := gen + 1, record := none }).judgeLine
    (h.slot = 0 → s.scheduler.passWanted = false → exec i s = .next (answeredBy s i (noPayload .home) s))
      ∧ (h.slot ≠ 0 →
          ∃ t, exec i s = .next t ∧ answersPlainly t .ok
            ∧ t.slotAt h.slot = { generation := gen + 1, record := none } ∧ t.entryAt h.slot = none
            ∧ (∀ j, j ≠ h.slot → (t.slotAt j).generation = (s.slotAt j).generation
                ∧ (t.recordAt j).map Record.setup = (s.recordAt j).map Record.setup)
            ∧ t.classes = s.classes ∧ t.time = s.time ∧ t.sweep = s.sweep ∧ t.pendant = s.pendant
            ∧ t.notices.recordMask = s.notices.recordMask ∧ t.notices.deviceMask = s.notices.deviceMask
            ∧ t.notices.master = s.notices.master)
      ∧ (h.slot ≠ 0 → r.state = .dormant → s.scheduler.passWanted = false → exec i s = .next (answeredBy s i (noPayload .ok) gone))
      ∧ (h.slot ≠ 0 → NothingDue s →
          (r.state = .queued → exec i s = .next (answeredBy s i (noPayload .ok)
            (gone.setQueue (s.arbiter.queue.filter fun x => decide (x.request.handle.slot ≠ h.slot)))))
          ∧ (r.state = .suspended → exec i s = .next (answeredBy s i (noPayload .ok)
            (gone.setStack (s.arbiter.stack.filter fun x => decide (x.handle.slot ≠ h.slot)))))
          ∧ ∀ st g c, r.state = .active st → s.arbiter.runMode = .running → s.arbiter.grant = some g → s.pursuit = some c →
              (s.arbiter.queue = [] → s.arbiter.stack = [] → exec i s = .next (answeredWith s i (noPayload .ok) (beamFreed gone)))
              ∧ ∀ q queue stack rq d, Selects s.arbiter q queue stack → QueueDistinct s.arbiter.queue → q.handle.slot ≠ h.slot →
                  s.live q.handle = some rq → rq.prediction q.aim s.now = some d →
                  exec i s = .next (answeredWith s i (noPayload .ok) (beamPassed gone q rq d queue stack)))

/-- READ answers the group and then clears what R12 says, and nothing else; an undefined group is RANGE. The Fix and Status groups are laid out as R187 and
R188 picture them, an absent fix with it; the other groups hold the values of 1.3 in its order, in the model's layout (log 6), with the drift state's code
(log 7). -/
def Obligations.ReadAnswersGroup : Prop :=
  ∀ (s : State) (slot gen group : Byte), s.resetnLow = false →
    (7 < group.toNat → exec (.read slot gen group) s = .next (answeredBy s (.read slot gen group) (noPayload .range) s))
      ∧ ∀ g h r, groupOf group = some g → s.lookup slot gen = .ok (h, r) →
          let head : List Byte := [BitVec.ofNat 8 h.slot.val, h.generation, group]
          let bit (b : Bool) : Byte := if b then 1 else 0
          let zeros (n : Nat) : List Byte := List.replicate n 0
          ∃ payload, exec (.read slot gen group) s = .next (answeredBy s (.read slot gen group) (okPayload payload)
            (s.withRecord h
              (match g with
              | .fix => { r with fixPending := false, fixOverrun := false }
              | .statistics => { r with breaks := 0, searches := 0, ambiguities := 0 }
              | .status => { r with lockLatch := decide (r.state = .active .locked) }
              | _ => r)))
          ∧ (g = .identity → payload = head ++ [kindCode r.kind, BitVec.ofNat 8 r.cls.val, ownerCode r.owner, stateCode (some r.state),
              outcomeCode r.outcome, bit r.autoResume, bit r.hold])
          ∧ (g = .fix → ∃ flags : Byte, flags.getLsbD 0 = r.fix.isSome ∧ flags.getLsbD 1 = (r.fix.bind (·.near)).isSome
              ∧ flags.getLsbD 2 = (r.fix.bind (·.mark)).isSome ∧ flags.getLsbD 3 = r.fixPending ∧ flags.getLsbD 4 = r.fixOverrun
              ∧ flags.toNat < 32
              ∧ (∀ f, r.fix = some f → payload = head ++ [flags]
                  ++ bytes4 (BitVec.ofInt 32 f.direction.azimuth) ++ bytes4 (BitVec.ofInt 32 f.direction.elevation)
                  ++ bytes4 (BitVec.ofNat 32 f.range) ++ bytes6 f.stamp ++ bytes2 (BitVec.ofNat 16 f.quality) ++ bytes2 r.sequence
                  ++ [BitVec.ofNat 8 ((f.near.map (·.val)).getD 0), f.mark.getD 0])
              ∧ (r.fix = none → payload = head ++ [flags] ++ zeros 20 ++ bytes2 r.sequence ++ [0, 0]))
          ∧ (g = .motion →
              (∀ m, r.motion = some m → payload = head ++ [1] ++ bytes4 (BitVec.ofInt 32 m.azimuthRate)
                ++ bytes4 (BitVec.ofInt 32 m.elevationRate) ++ bytes4 (BitVec.ofInt 32 m.rangeRate))
              ∧ (r.motion = none → payload = head ++ [0] ++ zeros 12))
          ∧ (g = .reference → ∃ (flags : Byte) (ref dev : List Byte),
              flags.getLsbD 0 = r.reference.isSome ∧ flags.getLsbD 1 = r.lastDeviation.isSome ∧ flags.toNat < 4
              ∧ payload = head ++ [flags] ++ ref ++ bytes2 (BitVec.ofNat 16 r.angleTolerance) ++ bytes4 (BitVec.ofNat 32 r.rangeTolerance)
                  ++ [Config.driftCode r.drift] ++ dev
              ∧ (∀ x, r.reference = some x → ref = bytes4 (BitVec.ofInt 32 x.direction.azimuth) ++ bytes4 (BitVec.ofInt 32 x.direction.elevation)
                  ++ bytes4 (BitVec.ofNat 32 x.range)) ∧ (r.reference = none → ref = zeros 12)
              ∧ (∀ x, r.lastDeviation = some x → dev = bytes4 (BitVec.ofInt 32 x.azimuth) ++ bytes4 (BitVec.ofInt 32 x.elevation)
                  ++ bytes4 (BitVec.ofInt 32 x.range)) ∧ (r.lastDeviation = none → dev = zeros 12))
          ∧ (g = .parameters → payload = head ++ bytes2 (BitVec.ofNat 16 r.params.window) ++ bytes2 (BitVec.ofNat 16 r.params.coastTime)
              ++ bytes2 (BitVec.ofNat 16 r.params.fixInterval) ++ [BitVec.ofNat 8 r.params.searchRings]
              ++ bytes2 (BitVec.ofNat 16 r.params.searchLimit))
          ∧ (g = .revisit →
              (∀ e, s.entryAt h.slot = some e → payload = head ++ [1] ++ bytes2 (BitVec.ofNat 16 r.period) ++ bytes6 (e.due + s.time.offset)
                ++ [BitVec.ofNat 8 r.missCount])
              ∧ (s.entryAt h.slot = none → payload = head ++ [0] ++ bytes2 (BitVec.ofNat 16 r.period) ++ zeros 6 ++ [BitVec.ofNat 8 r.missCount]))
          ∧ (g = .statistics → payload = head ++ [BitVec.ofNat 8 r.breaks, BitVec.ofNat 8 r.searches, BitVec.ofNat 8 r.ambiguities])
          ∧ (g = .status → payload = head ++ [stateCode (some r.state), outcomeCode r.outcome, bit r.lockLatch, r.notices])

/-- SET of the Parameters group, of hold and of auto-resume: the checks in their order, and nothing written but the values (R13, R15). That 1 is on and 0 is
off and any other byte RANGE is the model's choice (log 8), and so is the place of that check (log 22). windowTestFails is the test of R35, which
SetReferenceWrites spells out; Fits says the ranges of 1.3 in numbers. -/
def Obligations.SetWritesValues : Prop :=
  ∀ (s : State) (slot gen : Byte) (h : Handle) (r : Record), s.resetnLow = false → s.lookupOwned slot gen = .ok (h, r) →
    (∀ (w c f l : BitVec 16) (n : Byte),
        let i := Instr.setParameters slot gen 0 w c f n l
        let p : Parameters :=
          { window := w.toNat, coastTime := c.toNat, fixInterval := f.toNat, searchRings := n.toNat, searchLimit := l.toNat }
        let t := s.withRecord h { r with params := p }
        let moves := p.window ≠ r.params.window
        (moves → (∃ st, r.state = .active st) → exec i s = .next (answeredBy s i (noPayload .busy) s))
          ∧ (¬(moves ∧ ∃ st, r.state = .active st) →
              (¬p.Fits → exec i s = .next (answeredBy s i (noPayload .range) s))
              ∧ (p.Fits → p = r.params → exec i s = .next (answeredBy s i (noPayload .already) s))
              ∧ (p.Fits → moves → r.position.isSome = true → windowTestFails s t h.slot = true →
                  exec i s = .next (answeredBy s i (noPayload .overlap) s))
              ∧ (p.Fits → p ≠ r.params → (moves → r.position.isSome = true → windowTestFails s t h.slot = false) →
                  exec i s = .next (answeredBy s i (noPayload .ok) t))))
      ∧ (∀ (v : Byte), 1 < v.toNat →
          exec (.setHold slot gen 2 v) s = .next (answeredBy s (.setHold slot gen 2 v) (noPayload .range) s)
            ∧ exec (.setAutoResume slot gen v) s = .next (answeredBy s (.setAutoResume slot gen v) (noPayload .range) s))
      ∧ (∀ (v : Bool),
          let b : Byte := if v then 1 else 0
          exec (.setHold slot gen 2 b) s = .next (if r.hold = v then answeredBy s (.setHold slot gen 2 b) (noPayload .already) s
            else answeredBy s (.setHold slot gen 2 b) (noPayload .ok) (s.withRecord h { r with hold := v }))
          ∧ exec (.setAutoResume slot gen b) s =
              .next (if r.autoResume = v then answeredBy s (.setAutoResume slot gen b) (noPayload .already) s
                else answeredBy s (.setAutoResume slot gen b) (noPayload .ok) (s.withRecord h { r with autoResume := v })))

/-- SET of the Reference group in both forms: KIND, BUSY, RANGE, OVERLAP in that order, or the reference written or removed with the drift watch afresh
(R14); and the window test as R35 puts it, with the positions, the windows and the short way round of R32 to R34. -/
def Obligations.SetReferenceWrites : Prop :=
  (∀ (before after : State) (i j : Fin 48),
      (pairFails before after i j = true ↔
        WindowsOverlap after i j ∧ (¬WindowsOverlap before i j ∨ HasReference after i ∧ HasReference after j))
      ∧ (windowTestFails before after i = true ↔ ∃ k, k ≠ i ∧ pairFails before after i k = true))
    ∧ (∀ (r : Record) (d : Direction), r.position = some d ↔ r.StandsAt d)
    ∧ (∀ a b : Direction, ShortWay (a.azimuth - b.azimuth) (azimuthDifference a b) ∧ elevationDifference a b = a.elevation - b.elevation)
    ∧ (∀ x : Int, ShortWay x (normAzimuth x) ∧ holdElevation x = max (-1500000) (min 1500000 x))
    ∧ ∀ (s : State) (slot gen : Byte) (h : Handle) (r : Record) (az el range rt : BitVec 32) (at_ : BitVec 16),
      s.resetnLow = false → s.lookupOwned slot gen = .ok (h, r) →
      let full := Instr.setReference slot gen 1 az el range at_ rt
      let gone := Instr.setReferenceRemoval slot gen 1
      let ref : Reference := { direction := { azimuth := az.toInt, elevation := el.toInt }, range := range.toNat }
      let inRange := -3141592 ≤ az.toInt ∧ az.toInt ≤ 3141592 ∧ -1500000 ≤ el.toInt ∧ el.toInt ≤ 1500000 ∧ range.toNat ≤ 80000000
        ∧ at_.toNat ≤ 50000 ∧ rt.toNat ≤ 5000000
      let t := s.withRecord h { r with
        reference := some ref, angleTolerance := at_.toNat, rangeTolerance := rt.toNat, drift := .none, lastDeviation := none }
      let u := s.withRecord h { r with reference := none, drift := .none, lastDeviation := none }
      (r.kind = .roving →
          exec full s = .next (answeredBy s full (noPayload .kind) s) ∧ exec gone s = .next (answeredBy s gone (noPayload .kind) s))
        ∧ (r.kind ≠ .roving → (∃ st, r.state = .active st) →
            exec full s = .next (answeredBy s full (noPayload .busy) s) ∧ exec gone s = .next (answeredBy s gone (noPayload .busy) s))
        ∧ (r.kind ≠ .roving → (¬∃ st, r.state = .active st) →
            (¬inRange → exec full s = .next (answeredBy s full (noPayload .range) s))
            ∧ (inRange → exec full s = .next
                (if windowTestFails s t h.slot then answeredBy s full (noPayload .overlap) s else answeredBy s full (noPayload .ok) t))
            ∧ exec gone s = .next
                (if windowTestFails s u h.slot then answeredBy s gone (noPayload .overlap) s else answeredBy s gone (noPayload .ok) u))

/-- CHANGE-KIND as a compare-and-set: its checks in their order, and the effects of the two changes (R16). -/
def Obligations.ChangeKindChanges : Prop :=
  ∀ (s : State) (slot gen x y : Byte) (h : Handle) (r : Record) (expected wanted : Kind),
    s.resetnLow = false → s.lookupOwned slot gen = .ok (h, r) → kindOf x = some expected → kindOf y = some wanted →
    let i := Instr.changeKind slot gen x y
    let roving := s.withRecord h
      { r with kind := .roving, reference := none, drift := .none, lastDeviation := none, period := 0, missCount := 0 }
    let nest := s.withRecord h { r with kind := .nest, motion := none }
    (h.slot = 0 ∨ wanted = .home → exec i s = .next (answeredBy s i (noPayload .home) s))
      ∧ (h.slot ≠ 0 → wanted ≠ .home →
          (r.kind ≠ expected → exec i s = .next (answeredBy s i (noPayload .kind) s))
          ∧ (r.kind = expected → r.state ≠ .dormant → exec i s = .next (answeredBy s i (noPayload .busy) s))
          ∧ (r.kind = expected → r.state = .dormant →
              (wanted = r.kind → exec i s = .next (answeredBy s i (noPayload .already) s))
              ∧ (wanted = .roving → r.kind ≠ .roving → exec i s = .next (answeredBy s i (noPayload .ok) (roving.removeEntry h.slot)))
              ∧ (wanted = .nest → r.kind ≠ .nest → exec i s = .next
                  (if r.fix.isSome = true ∧ windowTestFails s nest h.slot = true then answeredBy s i (noPayload .overlap) s
                    else answeredBy s i (noPayload .ok) nest))))

/-- R17: TAKE makes a record STATION-owned, in every state and whoever owns it; the pendant's requests naming it are then refused OWNER, and its entries and
its grant keep their origin. -/
def Obligations.TakeMakesStationOwned : Prop :=
  ∀ (s : State) (slot gen : Byte) (h : Handle) (r : Record), s.resetnLow = false → s.lookup slot gen = .ok (h, r) →
    (r.owner = .station → exec (.take slot gen) s = .next (answeredBy s (.take slot gen) (noPayload .already) s))
      ∧ (r.owner ≠ .station →
          ∃ t, exec (.take slot gen) s = .next t
            ∧ t = answeredBy s (.take slot gen) (noPayload .ok) (s.withRecord h { r with owner := .station })
            ∧ (∀ offset check, t.offsetSlot offset = some h.slot → t.pendantLookup offset check = .error .owner)
            ∧ t.arbiter = s.arbiter)

/-- GIVE makes a STATION-owned record inside the pendant window PENDANT-owned, and the station's owner-checked requests naming it are then refused
(R18). That RANGE comes before ALREADY is the model's order (log 22). -/
def Obligations.GiveMakesPendantOwned : Prop :=
  ∀ (s : State) (slot gen : Byte) (h : Handle) (r : Record), s.resetnLow = false → s.lookup slot gen = .ok (h, r) →
    let inside := s.table.pendantWindow.base ≤ h.slot.val ∧ h.slot.val < s.table.pendantWindow.base + s.table.pendantWindow.length
    (h.slot = 0 → exec (.give slot gen) s = .next (answeredBy s (.give slot gen) (noPayload .home) s))
      ∧ (h.slot ≠ 0 → ¬inside → exec (.give slot gen) s = .next (answeredBy s (.give slot gen) (noPayload .range) s))
      ∧ (h.slot ≠ 0 → inside → r.owner = .pendant →
          exec (.give slot gen) s = .next (answeredBy s (.give slot gen) (noPayload .already) s))
      ∧ (h.slot ≠ 0 → inside → r.owner = .station →
          ∃ t, exec (.give slot gen) s = .next t
            ∧ t = answeredBy s (.give slot gen) (noPayload .ok) (s.withRecord h { r with owner := .pendant })
            ∧ t.lookupOwned slot gen = .error .owner)

/-- WINDOWS: RANGE and ALREADY change nothing; a new station window is written alone; a new pendant window passes the PENDANT-owned records it leaves
outside to the station, removes their PENDANT-origin queue entries, whose records become DORMANT RELEASED, and forgets the reported generations, with no
revisit DUE (R19, R96, R196). Its selector's codes are the model's (log 8), and so is that an equal pendant window is no change of it (log 18). -/
def Obligations.WindowsChange : Prop :=
  ∀ (s : State) (x sb sl pb pl : Byte), s.resetnLow = false → s.scheduler.passWanted = false →
    let i := Instr.windows x sb sl pb pl
    let st : AllocWindow := { base := sb.toNat, length := sl.toNat }
    let pd : AllocWindow := { base := pb.toNat, length := pl.toNat }
    let legal (w : AllocWindow) := 1 ≤ w.base ∧ w.base ≤ 47 ∧ 1 ≤ w.length ∧ w.length ≤ 47 ∧ w.base + w.length ≤ 48
    let written : State := { s with table := { s.table with stationWindow := st } }
    (3 ≤ x.toNat ∨ (x = 0 ∨ x = 2) ∧ ¬legal st ∨ (x = 1 ∨ x = 2) ∧ ¬legal pd → exec i s = .next (answeredBy s i (noPayload .range) s))
      ∧ (x = 0 → legal st → exec i s = .next (if st = s.table.stationWindow then answeredBy s i (noPayload .already) s
          else answeredBy s i (noPayload .ok) written))
      ∧ (x = 1 → legal pd → pd = s.table.pendantWindow → exec i s = .next (answeredBy s i (noPayload .already) s))
      ∧ (x = 2 → legal st → legal pd → pd = s.table.pendantWindow → exec i s = .next
          (if st = s.table.stationWindow then answeredBy s i (noPayload .already) s else answeredBy s i (noPayload .ok) written))
      ∧ (x = 1 ∨ x = 2 → legal pd → (x = 2 → legal st) → pd ≠ s.table.pendantWindow →
          ∃ t, exec i s = .next t ∧ answersPlainly t .ok
            ∧ t.table.pendantWindow = pd ∧ t.table.stationWindow = (if x = 2 then st else s.table.stationWindow)
            ∧ t.pendant = { s.pendant with reported := Vector.replicate 48 none }
            ∧ (∀ j, (t.slotAt j).generation = (s.slotAt j).generation
                ∧ (t.recordAt j).map Record.setup = (s.recordAt j).map fun r =>
                    { r.setup with owner := if pd.contains j then r.owner else .station })
            ∧ t.classes = s.classes ∧ t.time = s.time ∧ t.sweep = s.sweep ∧ t.notices.master = s.notices.master
            ∧ t.notices.recordMask = s.notices.recordMask ∧ t.notices.deviceMask = s.notices.deviceMask
            ∧ (NothingDue s →
                let left (j : Fin 48) := ∃ r, s.recordAt j = some r ∧ r.owner = .pendant ∧ ¬(pb.toNat ≤ j.val ∧ j.val < pb.toNat + pl.toNat)
                let gone (e : QueueEntry) := e.request.origin = .pendant ∧ left e.request.handle.slot
                t.pursuit = s.pursuit ∧ t.scheduler = s.scheduler ∧ t.notices = s.notices
                  ∧ { t.arbiter with queue := s.arbiter.queue } = s.arbiter ∧ t.arbiter.queue.Sublist s.arbiter.queue
                  ∧ (∀ e ∈ s.arbiter.queue, e ∈ t.arbiter.queue ↔ ¬gone e)
                  ∧ ∀ j r, s.recordAt j = some r →
                      ((∃ e ∈ s.arbiter.queue, gone e ∧ e.request.handle = s.handleOf j) → t.recordAt j = some { r with
                        owner := .station, state := .dormant, outcome := .released })
                      ∧ ((¬∃ e ∈ s.arbiter.queue, gone e ∧ e.request.handle = s.handleOf j) → t.recordAt j = some { r with
                          owner := if pd.contains j then r.owner else .station })))

/-! ### The class table -/

/-- R29: CLASS-ENTRY in its read form returns the six figures as they stand and answers OK, RANGE for a class above 7, and changes nothing. -/
def Obligations.ClassEntryReadReturns : Prop :=
  ∀ (s : State) (cls : Byte), s.resetnLow = false →
    (∀ c : Fin 8, c.val = cls.toNat →
        exec (.classEntryRead cls) s = .next (answeredBy s (.classEntryRead cls) (okPayload
          (nat2 s.classes[c.val].sphereOffset ++ nat2 s.classes[c.val].captureRadius ++ nat2 s.classes[c.val].centreRadius
            ++ nat2 s.classes[c.val].minIntensity ++ nat2 s.classes[c.val].rangeAgreement ++ nat2 s.classes[c.val].ringStep)) s))
      ∧ (7 < cls.toNat → exec (.classEntryRead cls) s = .next (answeredBy s (.classEntryRead cls) (noPayload .range) s))

/-- CLASS-ENTRY in its write form: BUSY, RANGE, OVERLAP, ALREADY in that order, or the six figures replaced (R30). Fits says the ranges of R27 in numbers. -/
def Obligations.ClassEntryWriteReplaces : Prop :=
  ∀ (s : State) (cls : Byte) (a b d e f g : BitVec 16), s.resetnLow = false →
    let i := Instr.classEntryWrite cls a b d e f g
    (7 < cls.toNat → exec i s = .next (answeredBy s i (noPayload .range) s))
      ∧ ∀ c : Fin 8, c.val = cls.toNat →
          let entry : ClassEntry :=
            { sphereOffset := a.toNat, captureRadius := b.toNat, centreRadius := d.toNat, minIntensity := e.toNat
              rangeAgreement := f.toNat, ringStep := g.toNat }
          let t : State := { s with classes := s.classes.set c.val entry c.isLt }
          let busy := ∃ j r st, s.recordAt j = some r ∧ r.cls = c ∧ r.state = .active st
          let overlaps := entry.captureRadius ≠ s.classes[c.val].captureRadius
            ∧ ∃ j k r, j ≠ k ∧ s.recordAt j = some r ∧ r.cls = c ∧ r.params.window = 0 ∧ pairFails s t j k = true
          (busy → exec i s = .next (answeredBy s i (noPayload .busy) s))
            ∧ (¬busy → ¬entry.Fits → exec i s = .next (answeredBy s i (noPayload .range) s))
            ∧ (¬busy → entry.Fits → overlaps → exec i s = .next (answeredBy s i (noPayload .overlap) s))
            ∧ (¬busy → entry.Fits → ¬overlaps → exec i s = .next
                (if entry = s.classes[c.val] then answeredBy s i (noPayload .already) s else answeredBy s i (noPayload .ok) t))

/-- CHANGE-CLASS: BUSY, RANGE, OVERLAP, ALREADY in that order, or the class written (R31). -/
def Obligations.ChangeClassWrites : Prop :=
  ∀ (s : State) (slot gen cls : Byte) (h : Handle) (r : Record), s.resetnLow = false → s.lookupOwned slot gen = .ok (h, r) →
    let i := Instr.changeClass slot gen cls
    ((∃ st, r.state = .active st) → exec i s = .next (answeredBy s i (noPayload .busy) s))
      ∧ ((¬∃ st, r.state = .active st) → 7 < cls.toNat → exec i s = .next (answeredBy s i (noPayload .range) s))
      ∧ ((¬∃ st, r.state = .active st) → ∀ c : Fin 8, c.val = cls.toNat →
          let t := s.withRecord h { r with cls := c }
          exec i s = .next
            (if r.position.isSome = true ∧ r.params.window = 0 ∧ windowTestFails s t h.slot = true then answeredBy s i (noPayload .overlap) s
              else if r.cls = c then answeredBy s i (noPayload .already) s
              else answeredBy s i (noPayload .ok) t))

/-! ### The beam arbiter -/

/-- PURSUE of a DORMANT record at a free beam with nothing else waiting: the record is granted and slewed to its prediction at once (R84, R88, R48); and the
prediction as R37 and R38 put it. -/
def Obligations.PursueGrantsAtFreeBeam : Prop :=
  (∀ (x : Record) (aim : Option Direction) (t : Time),
      (∀ d, x.StandsAt d → x.prediction aim t = some d)
      ∧ (x.kind ≠ .roving → (∀ d, ¬x.StandsAt d) → x.prediction aim t = aim)
      ∧ (x.kind = .roving → x.fix = none → x.prediction aim t = aim)
      ∧ (∀ f, x.kind = .roving → x.fix = some f → x.motion = none → x.prediction aim t = some f.direction)
      ∧ ∀ f m, x.kind = .roving → x.fix = some f → x.motion = some m →
          let e : Int := min ((t - f.composed).toNat : Int) (x.params.coastTime * 1000)
          x.prediction aim t = some
            { azimuth := normAzimuth (f.direction.azimuth + (m.azimuthRate * e).tdiv 1000000)
              elevation := holdElevation (f.direction.elevation + (m.elevationRate * e).tdiv 1000000) })
  ∧ ∀ (s : State) (slot gen flags pr : Byte) (az el : BitVec 32) (h : Handle) (r : Record) (d : Direction),
    s.resetnLow = false → s.arbiter.runMode = .running → NothingDue s → s.lookup slot gen = .ok (h, r) → r.state = .dormant →
    s.arbiter.grant = none → s.arbiter.queue = [] → s.arbiter.stack = [] → s.arbiter.arrivalCounter < 65535 →
    let i := Instr.pursue slot gen flags pr az el
    let aim : Option Direction := if flags.getLsbD 1 then some { azimuth := az.toInt, elevation := el.toInt } else none
    let q := requestOf h .station (if flags.getLsbD 0 then pr.toNat else s.arbiter.priorities.station) aim
    flags.toNat < 4 → (flags.getLsbD 0 = true → pr.toNat ≤ 6) → (∀ a, aim = some a → a.Fits) → r.prediction aim s.now = some d →
    exec i s = .next
      { answeredBy s i (noPayload .ok) (s.withRecord h { r with state := .active .slewing }) with
        pursuit := some
          { target := h, origin := .station, aimDirection := d, stage := .slewing, moveInFlight := true, rangeInFlight := false
            lastCaptured := none, latestIntensity := none, centredCount := 0, readings := 0, heldReading := none, fixWait := none
            coastDeadline := none, search := none, nearSlot := none, pendingMark := none }
        arbiter := { s.arbiter with grant := some q, arrivalCounter := s.arbiter.arrivalCounter + 1 }
        ports := { s.ports with
          latestMoveTag := some s.ports.nextMoveTag, nextMoveTag := s.ports.nextMoveTag + 1
          driveOut := [.move d s.ports.nextMoveTag], rangeOut := [] } }

/-- PURSUE refused; PURSUE of a DORMANT record that stays at or below the grant, which becomes QUEUED with a new entry, the others renumbered when the arrival
counter stands at its end (R79); and PURSUE of a record that already has a request: a merge into a queue entry that stays below the grant, a raise of a
stack entry, or no change (R84). -/
def Obligations.PursueMergesOrIsRefused : Prop :=
  ∀ (s : State) (slot gen flags pr : Byte) (az el : BitVec 32) (h : Handle) (r : Record),
    s.resetnLow = false → s.scheduler.passWanted = false → s.lookup slot gen = .ok (h, r) →
    let i := Instr.pursue slot gen flags pr az el
    let aim : Option Direction := if flags.getLsbD 1 then some { azimuth := az.toInt, elevation := el.toInt } else none
    let p := if flags.getLsbD 0 then pr.toNat else s.arbiter.priorities.station
    let fits := flags.toNat < 4 ∧ (flags.getLsbD 0 = true → pr.toNat ≤ 6) ∧ ∀ a, aim = some a → a.Fits
    let raised (q : Request) : Request := { q with priority := max q.priority p, aim := if aim.isSome then aim else q.aim }
    let merged := s.arbiter.queue.map fun e => if e.request.handle.slot = h.slot then { e with request := raised e.request } else e
    let renumbered := s.arbiter.queue.map fun e =>
      { e with arrival := (s.arbiter.queue.filter fun x => decide (x.arrival < e.arrival)).length }
    let entered (queue : List QueueEntry) (n : Nat) : State :=
      { s.withRecord h { r with state := .queued } with arbiter :=
        { s.arbiter with queue := queue ++ [{ request := requestOf h .station p aim, arrival := n }], arrivalCounter := n + 1 } }
    let raisedStack := s.arbiter.stack.map fun q => if q.handle.slot = h.slot then raised q else q
    (s.arbiter.runMode = .parked → exec i s = .next (answeredBy s i (noPayload .parked) s))
      ∧ (s.arbiter.runMode = .running → ¬fits → exec i s = .next (answeredBy s i (noPayload .range) s))
      ∧ (s.arbiter.runMode = .running → fits →
          (∀ st, r.state = .active st → exec i s = .next (answeredBy s i (noPayload .already) s))
          ∧ (r.state = .dormant → r.prediction aim s.now = none → exec i s = .next (answeredBy s i (noPayload .noAim) s))
          ∧ (r.state = .dormant → r.prediction aim s.now ≠ none → 12 ≤ s.arbiter.queue.length →
              exec i s = .next (answeredBy s i (noPayload .full) s))
          ∧ (∀ g, r.state = .dormant → r.prediction aim s.now ≠ none → s.arbiter.queue.length < 12 → s.arbiter.grant = some g →
              p ≤ g.priority → (∀ e ∈ s.arbiter.queue, e.request.priority ≤ g.priority) →
              (s.arbiter.arrivalCounter ≠ 65535 → exec i s = .next
                (answeredBy s i (noPayload .ok) (entered s.arbiter.queue s.arbiter.arrivalCounter)))
              ∧ (s.arbiter.arrivalCounter = 65535 → exec i s = .next
                (answeredBy s i (noPayload .ok) (entered renumbered s.arbiter.queue.length))))
          ∧ (r.state = .suspended → exec i s = .next (answeredBy s i (noPayload .already) (s.setStack raisedStack)))
          ∧ (r.state = .queued → ∀ g, s.arbiter.grant = some g → (∀ e ∈ merged, e.request.priority ≤ g.priority) →
              exec i s = .next (answeredBy s i (noPayload .already) (s.setQueue merged))))

/-- PURSUE that brings a queued priority above the grant, by a new entry or by a merge: the waiting request of the highest priority, among equals of the
lowest arrival number, preempts; its record slews with one MOVE and no HALT, the lock latch of a locked record is cleared, and the preempted record goes to
the stack, to DORMANT with the DROP notice, or back to the queue, by origin and auto-resume; a full stack first drops its bottom entry, whose record becomes
DORMANT with outcome DROPPED and the DROP notice; no revisit being DUE, and that bottom entry naming none of the three records (R84, R89 to R92). -/
def Obligations.PreemptionDisposes : Prop :=
  ∀ (s : State) (slot gen pr : Byte) (h : Handle) (r rg rw : Record) (g : Request) (c : Context) (waiting : List QueueEntry) (w : QueueEntry)
    (d : Direction),
    s.resetnLow = false → s.arbiter.runMode = .running → NothingDue s → s.lookup slot gen = .ok (h, r) → s.arbiter.grant = some g →
    s.live g.handle = some rg → g.handle.slot ≠ h.slot → s.pursuit = some c → c.target = g.handle → s.arbiter.arrivalCounter < 65534 →
    pr.toNat ≤ 6 →
    (r.state = .dormant ∧ r.prediction none s.now ≠ none ∧ s.arbiter.queue.length < 12
        ∧ waiting = s.arbiter.queue ++ [{ request := requestOf h .station pr.toNat none, arrival := s.arbiter.arrivalCounter }]
      ∨ r.state = .queued ∧ waiting = s.arbiter.queue.map fun e =>
          if e.request.handle.slot = h.slot then { e with request := { e.request with priority := max e.request.priority pr.toNat } } else e) →
    QueueDistinct waiting → w ∈ waiting →
    (∀ x ∈ waiting, x.request.priority < w.request.priority ∨ x.request.priority = w.request.priority ∧ w.arrival ≤ x.arrival) →
    g.priority < w.request.priority → w.request.handle.slot ≠ g.handle.slot → s.live w.request.handle = some rw →
    (∀ x, s.arbiter.stack[3]? = some x →
      x.handle.slot ≠ h.slot ∧ x.handle.slot ≠ g.handle.slot ∧ x.handle.slot ≠ w.request.handle.slot) →
    rw.prediction w.request.aim s.now = some d →
    let i := Instr.pursue slot gen 1 pr 0 0
    let latch := if c.stage = .locked then false else rg.lockLatch
    let rest := waiting.filter fun x => decide (x.request.handle.slot ≠ w.request.handle.slot)
    let counter := if r.state = .dormant then s.arbiter.arrivalCounter + 1 else s.arbiter.arrivalCounter
    let pushed := (g.origin = .station ∨ g.origin = .pendant) ∧ rg.autoResume = true
    ∃ t, exec i s = .next t ∧ answersPlainly t (if r.state = .dormant then .ok else .already) ∧ t.arbiter.grant = some w.request
      ∧ t.pursuit = some
          { target := w.request.handle, origin := w.request.origin, aimDirection := d, stage := .slewing, moveInFlight := true
            rangeInFlight := false, lastCaptured := none, latestIntensity := none, centredCount := 0, readings := 0, heldReading := none
            fixWait := none, coastDeadline := none, search := none, nearSlot := none, pendingMark := none }
      ∧ t.ports.driveOut = [.move d s.ports.nextMoveTag] ∧ t.ports.outstanding = none
      ∧ t.recordAt w.request.handle.slot = some { rw with state := .active .slewing }
      ∧ (w.request.handle.slot ≠ h.slot → t.recordAt h.slot = some { r with state := .queued })
      ∧ (pushed → s.arbiter.stack.length < 4 →
          t.arbiter.stack = g :: s.arbiter.stack ∧ t.arbiter.queue = rest
            ∧ t.recordAt g.handle.slot = some { rg with state := .suspended, lockLatch := latch })
      ∧ (∀ bottom rb, pushed → s.arbiter.stack.length = 4 → s.arbiter.stack[3]? = some bottom → s.live bottom.handle = some rb →
          t.arbiter.stack = g :: s.arbiter.stack.take 3 ∧ t.arbiter.queue = rest
            ∧ t.recordAt g.handle.slot = some { rg with state := .suspended, lockLatch := latch }
            ∧ t.recordAt bottom.handle.slot =
                some { rb with state := .dormant, outcome := .dropped, notices := rb.notices ||| recordBit .drop })
      ∧ (g.origin = .station ∨ g.origin = .pendant → rg.autoResume = false →
          t.arbiter.stack = s.arbiter.stack ∧ t.arbiter.queue = rest
            ∧ t.recordAt g.handle.slot =
                some { rg with state := .dormant, outcome := .preempted, lockLatch := latch, notices := rg.notices ||| recordBit .drop })
      ∧ (g.origin = .revisit ∨ g.origin = .internal →
          t.arbiter.stack = s.arbiter.stack ∧ t.arbiter.queue = rest ++ [{ request := g, arrival := counter }]
            ∧ t.recordAt g.handle.slot = some { rg with state := .queued, lockLatch := latch })
      ∧ ∀ j, j ≠ h.slot → j ≠ g.handle.slot → j ≠ w.request.handle.slot →
          (pushed → 4 ≤ s.arbiter.stack.length → ∀ bottom, s.arbiter.stack[3]? = some bottom → j ≠ bottom.handle.slot) → t.slotAt j = s.slotAt j

/-- RELEASE: ALREADY for a DORMANT record; otherwise its request leaves the queue, the stack or the grant, the record is DORMANT with outcome RELEASED, and
the OFFERED entry of a REVISIT request is due one period from now; no other revisit being DUE (R93, R113). A beam given up passes to the request of the
highest priority, the stack top before a queue entry of its priority, then the lowest arrival number (R88); a request that finds no prediction at its grant
ends LOST (R39); where nothing waits HALT is sent (R76). -/
def Obligations.ReleaseGivesUp : Prop :=
  ∀ (s : State) (slot gen : Byte) (h : Handle) (r : Record), s.resetnLow = false → NothingDue s → s.lookup slot gen = .ok (h, r) →
    let i := Instr.release slot gen
    let t := s.withRecord h { r with state := .dormant, outcome := .released }
    let told (q : Request) : State :=
      match s.entryAt h.slot with
      | some e =>
        if q.origin = .revisit ∧ e.status = .offered then
          t.placeEntry { handle := h, due := s.time.count + BitVec.ofNat 48 (r.period * 1000000), status := .scheduled }
        else t
      | none => t
    (r.state = .dormant → exec i s = .next (answeredBy s i (noPayload .already) s))
      ∧ (∀ e, r.state = .queued → s.queuedAt h.slot = some e → e.request.handle = h →
          exec i s = .next (answeredBy s i (noPayload .ok)
            ((told e.request).setQueue (s.arbiter.queue.filter fun x => decide (x.request.handle.slot ≠ h.slot)))))
      ∧ (∀ q, r.state = .suspended → s.stackedAt h.slot = some q → q.handle = h →
          exec i s = .next (answeredBy s i (noPayload .ok)
            ((told q).setStack (s.arbiter.stack.filter fun x => decide (x.handle.slot ≠ h.slot)))))
      ∧ ∀ st g c, r.state = .active st → s.arbiter.grant = some g → g.handle = h → s.pursuit = some c → s.arbiter.runMode = .running →
          (s.arbiter.queue = [] → s.arbiter.stack = [] → exec i s = .next (answeredWith s i (noPayload .ok) (beamFreed (told g))))
          ∧ ∀ q queue stack rq, Selects s.arbiter q queue stack → QueueDistinct s.arbiter.queue → q.handle.slot ≠ h.slot →
              s.live q.handle = some rq →
              (∀ d, rq.prediction q.aim s.now = some d →
                exec i s = .next (answeredWith s i (noPayload .ok) (beamPassed (told g) q rq d queue stack)))
              ∧ (rq.prediction q.aim s.now = none → queue = [] → stack = [] → (q.origin = .station ∨ q.origin = .pendant) →
                  exec i s = .next (answeredWith s i (noPayload .ok) (beamFreed ((((told g).withRecord q.handle { rq with
                    state := .dormant, outcome := .lost, notices := rq.notices ||| recordBit .lost }).judgeLine.setQueue []).setStack []))))

/-- R83: PRIORITY in both forms; nothing but the one value changes, and RESET and PARK keep the table. That the read form answers INTERNAL's fixed 7 is the
model's reading (log 22). -/
def Obligations.PriorityReadsAndWrites : Prop :=
  ∀ (s : State) (origin value : Byte), s.resetnLow = false →
    (∀ o, originOf origin = some o →
        exec (.priorityRead origin) s = .next (answeredBy s (.priorityRead origin) (okPayload [BitVec.ofNat 8 (s.arbiter.priorities.value o)]) s))
      ∧ (3 < origin.toNat → exec (.priorityRead origin) s = .next (answeredBy s (.priorityRead origin) (noPayload .range) s))
      ∧ (3 ≤ origin.toNat ∨ 6 < value.toNat →
          exec (.priorityWrite origin value) s = .next (answeredBy s (.priorityWrite origin value) (noPayload .range) s))
      ∧ (∀ o, originOf origin = some o → o ≠ .internal → value.toNat ≤ 6 →
          exec (.priorityWrite origin value) s = .next
            (if value.toNat = s.arbiter.priorities.value o then answeredBy s (.priorityWrite origin value) (noPayload .already) s
              else answeredBy s (.priorityWrite origin value) (noPayload .ok)
                { s with arbiter := { s.arbiter with priorities :=
                  { station := if o = .station then value.toNat else s.arbiter.priorities.station
                    pendant := if o = .pendant then value.toNat else s.arbiter.priorities.pendant
                    revisit := if o = .revisit then value.toNat else s.arbiter.priorities.revisit } } }))
      ∧ (∃ t, exec .park s = .next t ∧ t.arbiter.priorities = s.arbiter.priorities)
      ∧ ∃ t, exec .reset s = .next t ∧ t.arbiter.priorities = s.arbiter.priorities

/-- PARK: every request is cleared with outcome PARKED and no notice, the drive is sent home or halted, the scheduler is frozen with its OFFERED entries
DUE; PARK while PARKED changes nothing (R98, R116). -/
def Obligations.ParkClearsRequests : Prop :=
  ∀ (s : State), s.resetnLow = false → s.scheduler.passWanted = false → s.pursuit.isSome = s.arbiter.grant.isSome →
    (s.scheduler.entries.map (·.handle.slot)).Nodup →
    (s.arbiter.runMode = .parked → exec .park s = .next (answeredBy s .park (noPayload .already) s))
      ∧ (s.arbiter.runMode = .running →
          let handles := (s.arbiter.grant.toList ++ s.arbiter.queue.map (·.request) ++ s.arbiter.stack).map (·.handle)
          let home := (s.recordAt 0).bind (·.reference)
          ∃ t, exec .park s = .next t ∧ answersPlainly t .ok
            ∧ t.arbiter = { s.arbiter with queue := [], stack := [], grant := none, runMode := .parked, arrivalCounter := 0 }
            ∧ t.pursuit = none
            ∧ (∀ j r, s.recordAt j = some r → t.recordAt j = some { r with
                state := if s.handleOf j ∈ handles then .dormant else r.state
                outcome := if s.handleOf j ∈ handles then .parked else r.outcome
                lockLatch := if ∃ c, s.pursuit = some c ∧ c.stage = .locked ∧ c.target = s.handleOf j then false else r.lockLatch })
            ∧ (∀ j, s.recordAt j = none → t.recordAt j = none) ∧ (∀ j, (t.slotAt j).generation = (s.slotAt j).generation)
            ∧ t.scheduler = { frozen := true, passWanted := false, entries := s.scheduler.entries.map fun e =>
                if e.status = .offered then { e with status := .due } else e }
            ∧ (∀ ref, home = some ref →
                t.ports = { s.ports with
                  outstanding := if s.arbiter.grant.isSome then none else s.ports.outstanding
                  latestMoveTag := some s.ports.nextMoveTag, nextMoveTag := s.ports.nextMoveTag + 1
                  driveOut := [.move ref.direction s.ports.nextMoveTag], rangeOut := [] })
            ∧ (home = none →
                t.ports = { s.ports with
                  outstanding := if s.arbiter.grant.isSome then none else s.ports.outstanding
                  latestMoveTag := none, driveOut := [.halt], rangeOut := [] })
            ∧ t.notices = s.notices ∧ t.classes = s.classes ∧ t.time = s.time ∧ t.sweep = s.sweep ∧ t.pendant = s.pendant
            ∧ t.table.stationWindow = s.table.stationWindow ∧ t.table.pendantWindow = s.table.pendantWindow)

/-- UNPARK: the home check is granted and slewed to the HOME reference, or, with no reference, the part runs with an empty grant; the scheduler is released,
and one offer pass follows over what is DUE: under the home check every offer is queued, and with an empty grant the first is granted (R87, R100, R109 to
R111, R116); UNPARK while RUNNING changes nothing (R100). offersMade is the pass (5.3); that it stands at the end of the event is log 5. -/
def Obligations.UnparkStartsHomeCheck : Prop :=
  ∀ (s : State), s.resetnLow = false →
    (NothingDue s → s.arbiter.runMode = .running → exec .unpark s = .next (answeredBy s .unpark (noPayload .already) s))
      ∧ (NothingDue s → s.arbiter.runMode = .parked → s.arbiter.grant = none → s.arbiter.queue = [] → s.arbiter.stack = [] →
          s.arbiter.arrivalCounter < 65535 → ∀ r, s.recordAt 0 = some r → r.kind = .home →
          (r.reference = none → exec .unpark s = .next (answeredBy s .unpark (noPayload .ok)
            { s with arbiter := { s.arbiter with runMode := .running }, scheduler := { s.scheduler with frozen := false } }))
          ∧ ∀ ref, r.reference = some ref → exec .unpark s = .next
              { answeredBy s .unpark (noPayload .ok) (s.withRecord (s.handleOf 0) { r with state := .active .slewing }) with
                pursuit := some
                  { target := s.handleOf 0, origin := .internal, aimDirection := ref.direction, stage := .slewing, moveInFlight := true
                    rangeInFlight := false, lastCaptured := none, latestIntensity := none, centredCount := 0, readings := 0
                    heldReading := none, fixWait := none, coastDeadline := none, search := none, nearSlot := none, pendingMark := none }
                arbiter := { s.arbiter with
                  runMode := .running, arrivalCounter := s.arbiter.arrivalCounter + 1
                  grant := some (requestOf (s.handleOf 0) .internal 7 none) }
                scheduler := { s.scheduler with frozen := false }
                ports := { s.ports with
                  latestMoveTag := some s.ports.nextMoveTag, nextMoveTag := s.ports.nextMoveTag + 1
                  driveOut := [.move ref.direction s.ports.nextMoveTag], rangeOut := [] } })
      ∧ (s.scheduler.passWanted = false → s.arbiter.runMode = .parked → s.arbiter.grant = none → s.arbiter.queue = [] → s.arbiter.stack = [] →
          s.arbiter.arrivalCounter < 65500 → s.arbiter.priorities.revisit ≤ 6 → (s.scheduler.entries.map (·.handle.slot)).Nodup →
          ∀ r, s.recordAt 0 = some r → r.kind = .home →
          let opened := sentNothing
            { s with arbiter := { s.arbiter with runMode := .running }, scheduler := { s.scheduler with frozen := false } }
          let passes (start : State) := exec .unpark s = .next (answeredWith s .unpark (noPayload .ok) (offersMade (dueEntries s) start))
          (r.reference = none → passes opened)
            ∧ ∀ ref, r.reference = some ref → passes (beamGranted
                (opened.withRecord (s.handleOf 0) { r with state := .active .slewing }) (requestOf (s.handleOf 0) .internal 7 none) ref.direction))

/-! ### What only observes -/

/-- The commands that only observe: each answers OK with its payload, in either run mode, and changes nothing but the link (R101, R120, R139, R142, R148,
R172). The layouts of the payloads are the model's (log 6, log 7). -/
def Obligations.ObserversChangeNothing : Prop :=
  ∀ (s : State) (position : Byte), s.resetnLow = false →
    let bit (b : Bool) : Byte := if b then 1 else 0
    let request (q : Request) : List Byte :=
      [BitVec.ofNat 8 q.handle.slot.val, q.handle.generation, originCode q.origin, BitVec.ofNat 8 q.priority]
    (∃ (grant : List Byte) (order : List QueueEntry), GrantItems s grant
        ∧ (QueueDistinct s.arbiter.queue → order.Perm s.arbiter.queue ∧ order.Pairwise fun a b =>
            b.request.priority < a.request.priority ∨ a.request.priority = b.request.priority ∧ a.arrival < b.arrival)
        ∧ exec .beamStatus s = .next (answeredBy s .beamStatus (okPayload
          ([Config.runModeCode s.arbiter.runMode] ++ grant
            ++ [BitVec.ofNat 8 s.arbiter.queue.length]
            ++ order.flatMap (fun e => request e.request ++ bytes2 (BitVec.ofNat 16 e.arrival) ++ [bit e.request.aim.isSome])
            ++ [BitVec.ofNat 8 s.arbiter.stack.length] ++ s.arbiter.stack.flatMap (fun q => request q ++ [bit q.aim.isSome])
            ++ [BitVec.ofNat 8 s.arbiter.priorities.station, BitVec.ofNat 8 s.arbiter.priorities.pendant,
                BitVec.ofNat 8 s.arbiter.priorities.revisit, 7])) s))
      ∧ (∃ (flags : Byte) (left : Nat), flags.getLsbD 0 = s.ports.expectedFrame.isSome ∧ flags.getLsbD 1 = s.ports.latestMoveTag.isSome
          ∧ flags.getLsbD 2 = s.ports.outstanding.isSome ∧ flags.toNat < 8
          ∧ (∀ q, s.ports.outstanding = some q → (DeadlineReached s q.deadline → left = 0)
              ∧ (¬DeadlineReached s q.deadline → left = (q.deadline - s.time.count).toNat))
          ∧ (s.ports.outstanding = none → left = 0)
          ∧ exec .portStatus s = .next (answeredBy s .portStatus (okPayload
            ([flags, s.ports.expectedFrame.getD 0, s.ports.nextMoveTag, s.ports.latestMoveTag.getD 0, s.ports.nextRangeTag,
              (s.ports.outstanding.map (·.tag)).getD 0] ++ bytes4 (BitVec.ofNat 32 left))) s))
      ∧ (∃ l, SweepItems s.sweep l ∧ exec .sweepStatus s = .next (answeredBy s .sweepStatus (okPayload l) s))
      ∧ exec .noticeControlRead s = .next (answeredBy s .noticeControlRead
          (okPayload [s.notices.recordMask, s.notices.deviceMask.setWidth 8, if s.notices.master then 1 else 0]) s)
      ∧ exec .syncRead s = .next (answeredBy s .syncRead (okPayload (bytes6 (s.time.count + s.time.offset) ++ bytes6 s.time.offset)) s)
      ∧ (31 < position.toNat → exec (.revisitEntry position) s = .next (answeredBy s (.revisitEntry position) (noPayload .range) s))
      ∧ (position.toNat ≤ 31 → s.scheduler.entries.length ≤ position.toNat →
          exec (.revisitEntry position) s = .next
            (answeredBy s (.revisitEntry position) (okPayload [BitVec.ofNat 8 s.scheduler.entries.length]) s))
      ∧ (∀ e r, position.toNat ≤ 31 → s.scheduler.entries[position.toNat]? = some e → s.live e.handle = some r →
          exec (.revisitEntry position) s = .next (answeredBy s (.revisitEntry position) (okPayload
            ([BitVec.ofNat 8 s.scheduler.entries.length, BitVec.ofNat 8 e.handle.slot.val, e.handle.generation]
              ++ bytes2 (BitVec.ofNat 16 r.period) ++ bytes6 (e.due + s.time.offset)
              ++ [Config.revisitStatusCode e.status, BitVec.ofNat 8 r.missCount])) s))

/-- SCAN answers the first matching slot of its walk with the count then left, NONE when the count is used up, END when the table runs out first; it changes
nothing (R161). What a condition's bytes say, and what matches it, is R158 to R160 and R189. The payload's layout, the result first, a handle only where
one is found, is the model's (log 6), and so is the result's code (log 7). -/
def Obligations.ScanFindsFirstMatch : Prop :=
  ∀ (s : State) (start direction count : Byte) (cond : ConditionBytes), s.resetnLow = false →
    let i := Instr.scan start direction count cond
    (conditionOf cond = none ↔ 1024 ≤ cond.states.toNat ∨ 8 ≤ cond.kinds.toNat ∨ 4 ≤ cond.owners.toNat ∨ 8 ≤ cond.qualifiers.toNat
        ∨ cond.qualifiers.getLsbD 2 = true ∧ 8 ≤ cond.outcome.toNat)
      ∧ (∀ c, conditionOf cond = some c → c.states.toNat = cond.states.toNat ∧ c.kinds.toNat = cond.kinds.toNat ∧ c.owners.toNat = cond.owners.toNat
          ∧ c.pendingOnly = cond.qualifiers.getLsbD 0 ∧ c.driftOut = cond.qualifiers.getLsbD 1
          ∧ (cond.qualifiers.getLsbD 2 = false → c.outcome = none)
          ∧ (cond.qualifiers.getLsbD 2 = true → c.outcome.map outcomeCode = some cond.outcome))
      ∧ (∀ (c : Condition) (j : Fin 48),
          (∀ r, s.recordAt j = some r → (s.slotMatches c j = true ↔
            c.states.getLsbD (stateCode (some r.state)).toNat = true ∧ c.kinds.getLsbD (kindCode r.kind).toNat = true
              ∧ c.owners.getLsbD (ownerCode r.owner).toNat = true ∧ (c.pendingOnly = true → r.notices ≠ 0)
              ∧ (∀ o, c.outcome = some o → r.outcome = o) ∧ (c.driftOut = true → r.drift = .outside)))
          ∧ (s.recordAt j = none → (s.slotMatches c j = true ↔
            c.states.getLsbD 0 = true ∧ c.pendingOnly = false ∧ c.outcome = none ∧ c.driftOut = false)))
      ∧ (47 < start.toNat ∨ 48 < count.toNat ∨ 1 < direction.toNat ∨ conditionOf cond = none →
          exec i s = .next (answeredBy s i (noPayload .range) s))
      ∧ ∀ (c : Condition) (first : Fin 48) (up : Bool), first.val = start.toNat → count.toNat ≤ 48 →
          direction = (if up then 0 else 1) → conditionOf cond = some c →
          let reaches (k : Nat) (j : Fin 48) := if up then j.val = first.val + k else first.val = j.val + k
          let slots := if up then 48 - first.val else first.val + 1
          (∀ k j, k < count.toNat → reaches k j → s.slotMatches c j = true →
              (∀ k' j', k' < k → reaches k' j' → s.slotMatches c j' = false) →
              exec i s = .next (answeredBy s i (okPayload ([Config.scanResultCode .found, BitVec.ofNat 8 j.val, (s.slotAt j).generation]
                ++ [BitVec.ofNat 8 (count.toNat - k - 1)])) s))
            ∧ (count.toNat ≤ slots → (∀ k j, k < count.toNat → reaches k j → s.slotMatches c j = false) →
                exec i s = .next (answeredBy s i (okPayload [Config.scanResultCode .none, 0]) s))
            ∧ (slots < count.toNat → (∀ k j, k < slots → reaches k j → s.slotMatches c j = false) →
                exec i s = .next (answeredBy s i (okPayload [Config.scanResultCode .tableEnd, BitVec.ofNat 8 (count.toNat - slots)]) s))

/-! ### The revisit scheduler, the time base and the notice unit -/

/-- SET-REVISIT: its checks in their order, and its effect on the list by the old and the new period (R105, R106); and what placing an entry is: the
record's old entry leaves, and the entry stands where the order of R103 puts it (log 13). -/
def Obligations.SetRevisitKeepsList : Prop :=
  (∀ (x : State) (e : RevisitEntry),
      let others := x.scheduler.entries.filter fun y => decide (y.handle.slot ≠ e.handle.slot)
      x.removeEntry e.handle.slot = { x with scheduler := { x.scheduler with entries := others } }
        ∧ ∃ before later, x.placeEntry e = { x with scheduler := { x.scheduler with entries := before ++ e :: later } }
            ∧ before ++ later = others ∧ (∀ y ∈ before, ¬ListBefore e y) ∧ (∀ y, later.head? = some y → ListBefore e y)
            ∧ (others.Pairwise ListBefore → (before ++ e :: later).Pairwise ListBefore))
  ∧ ∀ (s : State) (slot gen : Byte) (period : BitVec 16) (h : Handle) (r : Record),
    s.resetnLow = false → s.lookupOwned slot gen = .ok (h, r) →
    let i := Instr.setRevisit slot gen period
    let p := period.toNat
    let t := s.withRecord h { r with period := p }
    let requested := (∃ e, s.queuedAt h.slot = some e ∧ e.request.origin = .revisit)
      ∨ ∃ g, s.arbiter.grant = some g ∧ g.handle.slot = h.slot ∧ g.origin = .revisit
    let dueNext := s.time.count + BitVec.ofNat 48 (p * 1000000)
    let fits := p = 0 ∨ 10 ≤ p ∧ p ≤ 3600
    let full := p ≠ 0 ∧ s.entryAt h.slot = none ∧ 32 ≤ s.scheduler.entries.length
    (r.kind = .roving → exec i s = .next (answeredBy s i (noPayload .kind) s))
      ∧ (r.kind ≠ .roving → ¬fits → exec i s = .next (answeredBy s i (noPayload .range) s))
      ∧ (r.kind ≠ .roving → fits → full → exec i s = .next (answeredBy s i (noPayload .full) s))
      ∧ (r.kind ≠ .roving → fits → ¬full →
          (p = r.period → exec i s = .next (answeredBy s i (noPayload .already) s))
          ∧ (p ≠ r.period → p = 0 → exec i s = .next (answeredBy s i (noPayload .ok) (t.removeEntry h.slot)))
          ∧ (p ≠ r.period → p ≠ 0 →
              (s.entryAt h.slot = none → requested →
                exec i s = .next (answeredBy s i (noPayload .ok) (t.placeEntry { handle := h, due := dueNext, status := .offered })))
              ∧ (s.entryAt h.slot = none → ¬requested →
                exec i s = .next (answeredBy s i (noPayload .ok) (t.placeEntry { handle := h, due := dueNext, status := .scheduled })))
              ∧ (∀ e, s.entryAt h.slot = some e → exec i s = .next (answeredBy s i (noPayload .ok) (t.placeEntry
                  { handle := h, due := dueNext, status := if e.status = .offered then .offered else .scheduled })))))

/-- SYNC, write form: the offset that makes the reported time the value given, and nothing else (R142). -/
def Obligations.SyncMovesOffset : Prop :=
  ∀ (s : State) (value : BitVec 64), s.resetnLow = false →
    let i := Instr.syncWrite value
    (2 ^ 48 ≤ value.toNat → exec i s = .next (answeredBy s i (noPayload .range) s))
      ∧ ∀ v : Time, v.toNat = value.toNat →
          (v - s.time.count = s.time.offset → exec i s = .next (answeredBy s i (noPayload .already) s))
          ∧ (v - s.time.count ≠ s.time.offset →
              ∃ t, exec i s = .next t
                ∧ t = answeredBy s i (noPayload .ok) { s with time := { s.time with offset := v - s.time.count } }
                ∧ t.reportedNow = v)

/-- R148: NOTICE-CONTROL returns the two masks and the master enable, or checks and writes the three together, leaves every pending set as it stands, and
judges the line afresh on the written values. -/
def Obligations.NoticeControlReadsAndWrites : Prop :=
  ∀ (s : State) (rm dm m : Byte), s.resetnLow = false →
    let i := Instr.noticeControlWrite rm dm m
    exec .noticeControlRead s = .next (answeredBy s .noticeControlRead
        (okPayload [s.notices.recordMask, s.notices.deviceMask.setWidth 8, if s.notices.master then 1 else 0]) s)
      ∧ (128 ≤ dm.toNat ∨ 1 < m.toNat → exec i s = .next (answeredBy s i (noPayload .range) s))
      ∧ (∀ (d : BitVec 7) (on : Bool), d.toNat = dm.toNat → m = (if on then 1 else 0) →
          (rm = s.notices.recordMask → d = s.notices.deviceMask → on = s.notices.master →
            exec i s = .next (answeredBy s i (noPayload .already) s))
          ∧ (¬(rm = s.notices.recordMask ∧ d = s.notices.deviceMask ∧ on = s.notices.master) →
              exec i s = .next (answeredBy s i (noPayload .ok) { s with notices := { s.notices with
                recordMask := rm, deviceMask := d, master := on
                line := on && (decide (s.notices.device &&& ~~~d ≠ 0#7)
                  || allSlots.any fun j => match s.recordAt j with
                    | some r => decide (r.notices &&& ~~~rm ≠ 0#8)
                    | none => false) } })))

/-- NEXT-NOTICE hands out and clears the device set's unmasked kinds, else those of the lowest such slot, else nothing; DEVICE-STATUS shows the counters and
clears them, and neither changes anything else (R150, R154). The layouts of the payloads are the model's (log 6, log 7). -/
def Obligations.NoticesAreHandedOut : Prop :=
  ∀ (s : State), s.resetnLow = false →
    let unmasked := s.notices.device &&& ~~~s.notices.deviceMask
    let pendingOf (j : Fin 48) : BitVec 8 := match s.recordAt j with
      | some r => r.notices &&& ~~~s.notices.recordMask
      | none => 0
    (unmasked ≠ 0 →
        let t := State.judgeLine { s with notices := { s.notices with device := s.notices.device &&& s.notices.deviceMask } }
        exec .nextNotice s = .next (answeredBy s .nextNotice
          (okPayload [Config.noticeSourceCode .device, unmasked.setWidth 8, if t.anyPending then 1 else 0]) t))
      ∧ (∀ j r, unmasked = 0 → s.recordAt j = some r → pendingOf j ≠ 0 → (∀ k, k < j → pendingOf k = 0) →
          let t := (s.withRecord (s.handleOf j) { r with notices := r.notices &&& s.notices.recordMask }).judgeLine
          exec .nextNotice s = .next (answeredBy s .nextNotice (okPayload [Config.noticeSourceCode .record, BitVec.ofNat 8 j.val,
            (s.slotAt j).generation, pendingOf j, if t.anyPending then 1 else 0]) t))
      ∧ (unmasked = 0 → (∀ j, pendingOf j = 0) →
          exec .nextNotice s = .next (answeredBy s .nextNotice (okPayload [Config.noticeSourceCode .none, 0]) s))
      ∧ ∃ grant sweep, GrantItems s grant ∧ SweepItems s.sweep sweep
        ∧ exec .deviceStatus s = .next (answeredBy s .deviceStatus (okPayload
          (bytes2 (BitVec.ofNat 16 s.notices.falseReturns) ++ bytes2 (BitVec.ofNat 16 s.notices.rangeFailures)
            ++ bytes2 (BitVec.ofNat 16 s.notices.frameRejects)
            ++ [BitVec.ofNat 8 s.notices.pendantErrors, Config.runModeCode s.arbiter.runMode] ++ grant
            ++ [BitVec.ofNat 8 s.arbiter.queue.length, BitVec.ofNat 8 s.arbiter.stack.length, BitVec.ofNat 8 s.scheduler.entries.length]
            ++ sweep ++ [s.notices.device.setWidth 8]))
          { s with notices := { s.notices with falseReturns := 0, rangeFailures := 0, frameRejects := 0, pendantErrors := 0 } })

/-! ### The sweep unit -/

/-- SWEEP puts a sweep in flight, or ends at once with count 0; SWEEP-STOP ends one with cause STOPPED; the refusals change nothing (R164, R173). That an OK of
SWEEP carries no payload is the model's reading (log 22), and SWEEP-STOP's layout its own (log 6, log 7). -/
def Obligations.SweepStartsAndStops : Prop :=
  ∀ (s : State) (start direction count action : Byte) (cond : ConditionBytes), s.resetnLow = false →
    let i := Instr.sweep start direction count cond action
    (47 < start.toNat ∨ 48 < count.toNat ∨ 1 < direction.toNat ∨ 4 < action.toNat ∨ conditionOf cond = none →
        exec i s = .next (answeredBy s i (noPayload .range) s))
      ∧ (∀ first d c a, slotOf start = some first → count.toNat ≤ 48 → walkOf direction = some d → conditionOf cond = some c →
          actionOf action = some a →
          (s.sweep.inFlight.isSome = true → exec i s = .next (answeredBy s i (noPayload .busy) s))
          ∧ (s.sweep.inFlight = none → count = 0 → exec i s = .next (answeredBy s i (noPayload .ok)
              (State.setDeviceNotice { s with sweep :=
                { inFlight := none, lastResult := some { cause := .count, action := a, acted := 0, skipped := 0 } } } .sweep)))
          ∧ (s.sweep.inFlight = none → count ≠ 0 →
              let begun : Sweep :=
                { condition := c, action := a, direction := d, next := first, remaining := count.toNat, acted := 0, skipped := 0 }
              exec i s = .next (answeredBy s i (noPayload .ok) { s with sweep := { s.sweep with inFlight := some begun } })))
      ∧ ∃ l, SweepItems s.sweep l
        ∧ (∀ sw, s.sweep.inFlight = some sw → exec .sweepStop s = .next (answeredBy s .sweepStop (okPayload l)
          { s with sweep :=
            { inFlight := none, lastResult := some { cause := .stopped, action := sw.action, acted := sw.acted, skipped := sw.skipped } } }))
        ∧ (s.sweep.inFlight = none → exec .sweepStop s = .next (answeredBy s .sweepStop { status := .already, payload := l } s))

/-- A sweep step: a slot that does not match only moves the sweep on; a matching slot is acted on as the action's single command acts, whichever of the five,
and counted as acted if that answers OK or ALREADY, as skipped otherwise; in every case the sweep then goes to its next slot with one fewer remaining, or
ends COUNT with its count used up, END past the end of the table, and then sets SWEEP (R165 to R170). -/
def Obligations.SweepStepMovesOn : Prop :=
  ∀ (s : State) (sw : Sweep), s.resetnLow = false → s.scheduler.passWanted = false → s.sweep.inFlight = some sw → 1 ≤ sw.remaining →
    let slot := BitVec.ofNat 8 sw.next.val
    let gen := (s.slotAt sw.next).generation
    let single : List (SweepAction × Instr) :=
      [(.release, .release slot gen), (.retire, .retire slot gen), (.revisitOff, .setRevisit slot gen 0), (.holdOn, .setHold slot gen 2 1),
        (.holdOff, .setHold slot gen 2 0)]
    let last := if sw.direction = .up then sw.next.val = 47 else sw.next.val = 0
    let goesOn (t u : State) (acted skipped : Nat) : Prop :=
      (sw.remaining = 1 → u = State.setDeviceNotice { t with sweep :=
          { inFlight := none, lastResult := some { cause := .count, action := sw.action, acted := acted, skipped := skipped } } } .sweep)
        ∧ (sw.remaining ≠ 1 → last → u = State.setDeviceNotice { t with sweep :=
            { inFlight := none, lastResult := some { cause := .tableEnd, action := sw.action, acted := acted, skipped := skipped } } } .sweep)
        ∧ (sw.remaining ≠ 1 → ¬last → ∀ j : Fin 48, (if sw.direction = .up then j.val = sw.next.val + 1 else j.val + 1 = sw.next.val) →
            let onward : Sweep := { sw with next := j, remaining := sw.remaining - 1, acted := acted, skipped := skipped }
            u = { t with sweep := { s.sweep with inFlight := some onward } })
    let quiet := sentNothing s
    ∃ u, exec .sweepStep s = .next u
      ∧ (s.slotMatches sw.condition sw.next = false → goesOn quiet u sw.acted sw.skipped)
      ∧ (s.slotMatches sw.condition sw.next = true → s.recordAt sw.next = none → goesOn quiet u sw.acted (sw.skipped + 1))
      ∧ (∀ r, s.slotMatches sw.condition sw.next = true → s.recordAt sw.next = some r → sw.action = .holdOn ∨ sw.action = .holdOff →
          (r.owner = .pendant → goesOn quiet u sw.acted (sw.skipped + 1))
          ∧ (r.owner = .station →
              goesOn (quiet.withRecord (s.handleOf sw.next) { r with hold := decide (sw.action = .holdOn) }) u (sw.acted + 1) sw.skipped))
      ∧ ∀ x ∈ single, x.1 = sw.action → s.slotMatches sw.condition sw.next = true → s.recordAt sw.next ≠ none →
          ∃ w, exec x.2 s = .next w ∧ ∃ answer, w.link.response.map (·.status) = some answer
            ∧ (answer = .ok ∨ answer = .already → goesOn { w with link := quiet.link } u (sw.acted + 1) sw.skipped)
            ∧ (answer ≠ .ok → answer ≠ .already → goesOn { w with link := quiet.link } u sw.acted (sw.skipped + 1))

/-! ### The RESET command -/

/-- The RESET command: the records but HOME are retired and HOME's setup is kept, the windows, the class table, the priority table, the time base and the
pendant link are kept, every request is cleared and the part PARKED, the list is emptied, the drive is sent home or halted, the notices and counters are
cleared, and a sweep in flight is abandoned (R25, R102, R117, R137, R156, R174, R185). -/
def Obligations.ResetKeepsSetup : Prop :=
  ∀ (s : State), s.resetnLow = false →
    let home := (s.recordAt 0).bind (·.reference)
    ∃ t, exec .reset s = .next t ∧ answersPlainly t .ok
      ∧ (∀ j r, j ≠ 0 → s.recordAt j = some r → t.slotAt j = { generation := (s.slotAt j).generation + 1, record := none })
      ∧ (∀ j, j ≠ 0 → s.recordAt j = none → t.slotAt j = s.slotAt j)
      ∧ (t.slotAt 0).generation = (s.slotAt 0).generation
      ∧ (∀ r, s.recordAt 0 = some r → t.recordAt 0 = some { r with
          state := .dormant, outcome := if r.state = .dormant then r.outcome else .parked
          fix := none, sequence := 0, fixPending := false, fixOverrun := false, motion := none, drift := .none, lastDeviation := none
          period := 0, missCount := 0, breaks := 0, searches := 0, ambiguities := 0, lockLatch := false, notices := 0 })
      ∧ t.table.stationWindow = s.table.stationWindow ∧ t.table.pendantWindow = s.table.pendantWindow ∧ t.classes = s.classes
      ∧ t.pursuit = none
      ∧ t.arbiter = { s.arbiter with queue := [], stack := [], grant := none, runMode := .parked, arrivalCounter := 0 }
      ∧ t.scheduler = { entries := [], frozen := true, passWanted := false }
      ∧ (∀ ref, home = some ref → t.ports = { s.ports with
          outstanding := none, latestMoveTag := some s.ports.nextMoveTag, nextMoveTag := s.ports.nextMoveTag + 1
          driveOut := [.move ref.direction s.ports.nextMoveTag], rangeOut := [] })
      ∧ (home = none → t.ports = { s.ports with outstanding := none, latestMoveTag := none, driveOut := [.halt], rangeOut := [] })
      ∧ t.time = s.time ∧ t.pendant = s.pendant
      ∧ t.notices = { s.notices with device := 0, falseReturns := 0, rangeFailures := 0, frameRejects := 0, pendantErrors := 0, line := false }
      ∧ (∀ sw, s.sweep.inFlight = some sw → t.sweep =
          { inFlight := none, lastResult := some { cause := .abandoned, action := sw.action, acted := sw.acted, skipped := sw.skipped } })
      ∧ (s.sweep.inFlight = none → t.sweep = s.sweep)

/-! ### Detector frames -/

/-- Every frame is counted by the port: the rejects by the gap and the check, the expected number after it; a frame that fails, or finds no grant or the
part PARKED, does nothing else (R122, R123, R124). -/
def Obligations.FramesAreCounted : Prop :=
  ∀ (s : State) (f : Frame), s.resetnLow = false → s.scheduler.passWanted = false →
    ∃ gap rejected,
      (∀ e, s.ports.expectedFrame = some e → f.parityAgrees = true → gap = (f.number - e).toNat)
      ∧ (s.ports.expectedFrame = none ∨ f.parityAgrees = false → gap = 0)
      ∧ (FrameGood f → rejected = 0) ∧ (¬FrameGood f → rejected = 1)
      ∧ s.countFrame f = { s with
          notices := { s.notices with frameRejects := min 65535 (s.notices.frameRejects + (gap + rejected)) }
          ports := { s.ports with expectedFrame :=
            if f.parityAgrees then some (f.number + 1) else s.ports.expectedFrame.map fun e => e + 1 } }
      ∧ (¬FrameGood f ∨ s.arbiter.grant = none ∨ s.arbiter.runMode = .parked →
          exec (.detectorFrame f) s = .next (sentNothing (s.countFrame f)))

/-- A frame in SLEWING and COASTING, the window on the prediction and the return judged by its direction, and in SEARCHING, the window following the beam and
the return judged by its spot offset, within the effective window on both axes: no return, a false return, an ambiguity, or a capture, with what each
delivers and sends (R41, R42, R43, R49, R66, R71). -/
def Obligations.HuntingFramesAreJudged : Prop :=
  ∀ (s : State) (f : Frame) (g : Request) (c : Context) (r : Record) (centre : Direction),
    Pursuing s g c r → FrameGood f →
    ((c.stage = .slewing ∨ c.stage = .coasting) ∧ r.prediction g.aim s.time.count = some centre
      ∨ c.stage = .searching) →
    let back : Direction :=
      { azimuth := normAzimuth (f.encoderAzimuth + f.spotX), elevation := holdElevation (f.encoderElevation + f.spotY) }
    let cls := s.classes[r.cls.val]
    let window := if r.params.window = 0 then cls.captureRadius else r.params.window
    let inside :=
      if c.stage = .searching then f.spotX.natAbs ≤ window ∧ f.spotY.natAbs ≤ window
      else (azimuthDifference back centre).natAbs ≤ window ∧ (elevationDifference back centre).natAbs ≤ window
    let elsewhere := ∃ j, j ≠ c.target.slot ∧ InWindowOf s back j
    let u := s.countFrame f
    let after (t : State) : State := if c.stage = .coasting then sentDrive t (.follow centre) else sentNothing t
    (f.intensity < cls.minIntensity → exec (.detectorFrame f) s = .next (after u))
      ∧ (cls.minIntensity ≤ f.intensity → ¬inside →
          let noted := if s.notices.falseReturns = 0 then u.setDeviceNotice .falseReturn else u
          exec (.detectorFrame f) s = .next (after { noted with notices :=
            { noted.notices with falseReturns := min 65535 (s.notices.falseReturns + 1) } }))
      ∧ (cls.minIntensity ≤ f.intensity → inside → elsewhere →
          exec (.detectorFrame f) s = .next (after (u.withRecord c.target { r with
            ambiguities := min 255 (r.ambiguities + 1), notices := r.notices ||| recordBit .ambig }).judgeLine))
      ∧ (cls.minIntensity ≤ f.intensity → inside → ¬elsewhere →
          exec (.detectorFrame f) s = .next (sentDrive
            { u.withRecord c.target { r with state := .active .centring } with
              pursuit := some { c with
                stage := .centring, lastCaptured := some back, latestIntensity := some f.intensity, centredCount := 0
                moveInFlight := false, coastDeadline := none, search := none } }
            (.follow back)))

/-- R52: a frame in CENTRING with no return, or a return outside the window, starts a search at the last captured direction. -/
def Obligations.CentringLostStartsSearch : Prop :=
  ∀ (s : State) (f : Frame) (g : Request) (c : Context) (r : Record) (captured : Direction),
    Pursuing s g c r → FrameGood f → c.stage = .centring → c.lastCaptured = some captured →
    let back : Direction :=
      { azimuth := normAzimuth (f.encoderAzimuth + f.spotX), elevation := holdElevation (f.encoderElevation + f.spotY) }
    let cls := s.classes[r.cls.val]
    let window := if r.params.window = 0 then cls.captureRadius else r.params.window
    (f.intensity < cls.minIntensity ∨ window < (azimuthDifference back captured).natAbs ∨ window < (elevationDifference back captured).natAbs) →
    exec (.detectorFrame f) s = .next (searchBegun (s.countFrame f) c r captured)

/-- A frame in CENTRING inside the window, off centre or centred, the third centred one entering RANGING; and a frame in RANGING (R44, R51, R53, R56). -/
def Obligations.CentringCountsAndRangingFollows : Prop :=
  ∀ (s : State) (f : Frame) (g : Request) (c : Context) (r : Record) (captured : Direction),
    Pursuing s g c r → FrameGood f → c.lastCaptured = some captured →
    let back : Direction :=
      { azimuth := normAzimuth (f.encoderAzimuth + f.spotX), elevation := holdElevation (f.encoderElevation + f.spotY) }
    let cls := s.classes[r.cls.val]
    let window := if r.params.window = 0 then cls.captureRadius else r.params.window
    let inside := (azimuthDifference back captured).natAbs ≤ window ∧ (elevationDifference back captured).natAbs ≤ window
    let centred := f.spotX * f.spotX + f.spotY * f.spotY ≤ (cls.centreRadius : Int) * cls.centreRadius
    let u := s.countFrame f
    let followed : Context := { c with lastCaptured := some back, latestIntensity := some f.intensity }
    (c.stage = .centring → cls.minIntensity ≤ f.intensity → inside →
        (¬centred → exec (.detectorFrame f) s = .next (sentDrive { u with pursuit := some { followed with centredCount := 0 } } (.follow back)))
        ∧ (centred → c.centredCount < 2 → exec (.detectorFrame f) s = .next
            (sentDrive { u with pursuit := some { followed with centredCount := c.centredCount + 1 } } (.follow back)))
        ∧ (centred → c.centredCount = 2 →
            let t := rangeAsked { u.withRecord c.target { r with state := .active .ranging } with pursuit := some { followed with
              stage := .ranging, centredCount := 3, readings := 0, heldReading := none, rangeInFlight := true } }
            exec (.detectorFrame f) s = .next { t with ports := { t.ports with driveOut := [.follow back] } }))
      ∧ (c.stage = .ranging →
          (cls.minIntensity ≤ f.intensity → exec (.detectorFrame f) s = .next (sentDrive { u with pursuit := some followed } (.follow back)))
          ∧ (f.intensity < cls.minIntensity → exec (.detectorFrame f) s = .next (searchBegun u c r captured)))

/-- A frame in LOCKED: followed with its near slot and, when that becomes another slot, AMBIG; or the break (R45, R58, R59). -/
def Obligations.LockedFramesFollowOrBreak : Prop :=
  ∀ (s : State) (f : Frame) (g : Request) (c : Context) (r : Record),
    Pursuing s g c r → FrameGood f → c.stage = .locked →
    let back : Direction :=
      { azimuth := normAzimuth (f.encoderAzimuth + f.spotX), elevation := holdElevation (f.encoderElevation + f.spotY) }
    let cls := s.classes[r.cls.val]
    let u := s.countFrame f
    let followed (near : Option (Fin 48)) : Context :=
      { c with lastCaptured := some back, latestIntensity := some f.intensity, nearSlot := near }
    (cls.minIntensity ≤ f.intensity → (∀ j, j ≠ c.target.slot → ¬InWindowOf s back j) →
        exec (.detectorFrame f) s = .next (sentDrive { u with pursuit := some (followed none) } (.follow back)))
      ∧ (∀ j, cls.minIntensity ≤ f.intensity → j ≠ c.target.slot → InWindowOf s back j →
          (∀ k, k < j → k ≠ c.target.slot → ¬InWindowOf s back k) →
          let v := if c.nearSlot = some j then u
            else (u.withRecord c.target { r with notices := r.notices ||| recordBit .ambig }).judgeLine
          exec (.detectorFrame f) s = .next (sentDrive { v with pursuit := some (followed (some j)) } (.follow back)))
      ∧ (f.intensity < cls.minIntensity →
          let v := (u.withRecord c.target { r with
            state := .active .coasting, breaks := min 255 (r.breaks + 1), lockLatch := false
            notices := r.notices ||| recordBit .break }).judgeLine
          exec (.detectorFrame f) s = .next (sentNothing { v with
            ports := { v.ports with outstanding := none }
            pursuit := some { c with
              stage := .coasting, rangeInFlight := false, fixWait := none, nearSlot := none
              coastDeadline := some (s.time.count + BitVec.ofNat 48 (r.params.coastTime * 1000)) } }))

/-! ### Drive completions -/

/-- ARRIVED: stale, or with no grant, or with no move in flight, it has no effect; in SLEWING it starts a search at the aim direction; in SEARCHING the
next waypoint within the elevation limits is slewed to, or, the spiral exhausted and no revisit DUE, the pursuit ends LOST, with the report of a REVISIT
request whose entry is OFFERED (a miss) or of the home check (HOME), and the beam passes to the request that selection takes, or is freed where none stands
(R50, R70, R74, R76, R88, R97, R113, R114, R128, R129). The waypoints are those of R69: the centre and radius times cosine and sine, truncated toward
zero. -/
def Obligations.ArrivalsWalkTheSpiral : Prop :=
  (∀ (sr : Search) (k j : Nat), 1 ≤ k → k ≤ 12 → j < 6 * k → sr.ringStep ≤ 10000 →
      ∃ x y : Int, TruncatesTo (k * sr.ringStep * Real.cos (2 * Real.pi * j / (6 * k))) x
        ∧ TruncatesTo (k * sr.ringStep * Real.sin (2 * Real.pi * j / (6 * k))) y
        ∧ waypointAt sr k j = { azimuth := normAzimuth (sr.centre.azimuth + x), elevation := sr.centre.elevation + y })
  ∧ ∀ (s : State) (tag : Byte), s.resetnLow = false → s.scheduler.passWanted = false →
    (s.ports.latestMoveTag ≠ some tag ∨ s.arbiter.grant = none → exec (.arrived tag) s = .next (sentNothing s))
      ∧ (∀ g c r, Pursuing s g c r → s.ports.latestMoveTag = some tag →
          (c.moveInFlight = false → exec (.arrived tag) s = .next (sentNothing s))
          ∧ (c.moveInFlight = true → c.stage = .slewing → exec (.arrived tag) s = .next (searchBegun s c r c.aimDirection))
          ∧ ∀ sr, c.moveInFlight = true → c.stage = .searching → c.search = some sr →
            let legal (k j : Nat) := (waypointAt sr k j).elevation.natAbs ≤ 1500000
            let goes (k j : Nat) := exec (.arrived tag) s = .next (movedTo
              { s with pursuit := some { c with moveInFlight := true, search := some { sr with ring := k, index := j } } } (waypointAt sr k j))
            let lost (notices : BitVec 8) : Record := { r with state := .dormant, outcome := .lost, notices := r.notices ||| recordBit .lost ||| notices }
            (∀ j, sr.index < j → j < 6 * sr.ring → legal sr.ring j → (∀ i, sr.index < i → i < j → ¬legal sr.ring i) → goes sr.ring j)
              ∧ (sr.ring < sr.rings → legal (sr.ring + 1) 0 → (∀ i, sr.index < i → i < 6 * sr.ring → ¬legal sr.ring i) → goes (sr.ring + 1) 0)
              ∧ (sr.rings ≤ sr.ring → (∀ i, sr.index < i → i < 6 * sr.ring → ¬legal sr.ring i) → NothingDue s →
                  let ends (t : State) := BeamGivenOn (.arrived tag) s t c.target.slot
                  (g.origin = .station ∨ g.origin = .pendant → ends (s.withRecord c.target (lost 0)).judgeLine)
                  ∧ (∀ e, g.origin = .revisit → s.entryAt c.target.slot = some e → e.status = .offered →
                    ends ((s.withRecord c.target
                      { lost (recordBit .miss) with missCount := min 15 (r.missCount + 1) }).judgeLine.placeEntry
                        { handle := c.target, due := s.time.count + BitVec.ofNat 48 (r.period * 1000000), status := .scheduled }))
                  ∧ (g.origin = .internal → ends ((s.withRecord c.target (lost 0)).setDeviceNotice .home))))

/-- A drive FAULT: stale, no effect; current with an empty grant, the DRIVE notice; current with a grant and no revisit DUE, DRIVE and the end FAULT in every
stage, with the report of a REVISIT request whose entry is OFFERED (a miss) or of the home check (HOME), and the beam passed to the request that selection
takes, or freed where none stands (R72, R76, R88, R97, R113, R114, R130). -/
def Obligations.DriveFaultsEndPursuits : Prop :=
  ∀ (s : State) (tag : Byte) (why : DriveFaultReason), s.resetnLow = false → s.scheduler.passWanted = false →
    (s.ports.latestMoveTag ≠ some tag → exec (.driveFault tag why) s = .next (sentNothing s))
      ∧ (s.ports.latestMoveTag = some tag → s.arbiter.grant = none →
          exec (.driveFault tag why) s = .next (sentNothing (s.setDeviceNotice .drive)))
      ∧ ∀ g c r, Pursuing s g c r → s.ports.latestMoveTag = some tag → NothingDue s →
          let ends (t : State) := BeamGivenOn (.driveFault tag why) s t c.target.slot
          let ended : Record :=
            { r with state := .dormant, outcome := .fault, lockLatch := if c.stage = .locked then false else r.lockLatch }
          (g.origin = .station ∨ g.origin = .pendant →
              ends ((s.withRecord c.target ended).setDeviceNotice .drive))
            ∧ (∀ e, g.origin = .revisit → s.entryAt c.target.slot = some e → e.status = .offered →
                let t := (s.withRecord c.target { ended with
                  missCount := min 15 (r.missCount + 1), notices := r.notices ||| recordBit .miss }).setDeviceNotice .drive
                ends (t.placeEntry
                  { handle := c.target, due := s.time.count + BitVec.ofNat 48 (r.period * 1000000), status := .scheduled }))
            ∧ (g.origin = .internal → ends (((s.withRecord c.target ended).setDeviceNotice .drive).setDeviceNotice .home))

/-! ### Range completions -/

/-- READING: stale, no effect; in RANGING the first is held, a later one that disagrees is held or, the fourth, starts a search, and one that agrees makes
the record LOCKED and is taken as a READING in LOCKED is (R54, R57, R133). -/
def Obligations.RangingReadingsLock : Prop :=
  ∀ (s : State) (tag : Byte) (distance : Nat), s.resetnLow = false → s.scheduler.passWanted = false →
    ((∀ q, s.ports.outstanding = some q → q.tag ≠ tag) → exec (.reading tag distance) s = .next (sentNothing s))
      ∧ ∀ g c r q, Pursuing s g c r → s.ports.outstanding = some q → q.tag = tag → c.stage = .ranging →
          let next : Context := { c with readings := c.readings + 1, heldReading := some distance, rangeInFlight := true }
          let agree (held : Nat) := ((held : Int) - distance).natAbs ≤ s.classes[r.cls.val].rangeAgreement
          (c.readings = 0 → exec (.reading tag distance) s = .next (rangeAsked { s with pursuit := some next }))
            ∧ ∀ held, 1 ≤ c.readings → c.heldReading = some held →
              (¬agree held → c.readings < 3 → exec (.reading tag distance) s = .next (rangeAsked { s with pursuit := some next }))
              ∧ (¬agree held → 3 ≤ c.readings → ∀ captured, c.lastCaptured = some captured →
                  exec (.reading tag distance) s = .next (searchBegun
                    { s with notices := { s.notices with rangeFailures := min 65535 (s.notices.rangeFailures + 1) } } c r captured))
              ∧ (agree held →
                  let locked := (s.withRecord c.target { r with state := .active .locked, notices := r.notices ||| recordBit .lock }).judgeLine
                  exec (.reading tag distance) s = exec (.reading tag distance) { locked with pursuit := some { c with
                    stage := .locked, nearSlot := none, readings := 0, heldReading := none } })

/-- READING of a LOCKED ROVING record under STATION or PENDANT origin: the fix composed of it, written or, under hold with a fix pending, discarded; the
motion estimate of R64; then the next RANGE at once or the fix wait (R21, R60, R63, R64). -/
def Obligations.LockedReadingsWriteFixes : Prop :=
  ∀ (s : State) (tag : Byte) (distance quality : Nat) (g : Request) (c : Context) (r : Record) (q : RangeRequest) (captured : Direction),
    Pursuing s g c r → s.ports.outstanding = some q → q.tag = tag → c.stage = .locked → r.kind = .roving →
    (g.origin = .station ∨ g.origin = .pendant) → c.lastCaptured = some captured → c.latestIntensity = some quality →
    let f : Fix :=
      { direction := captured, range := distance + s.classes[r.cls.val].sphereOffset, stamp := s.time.count + s.time.offset
        quality := quality, near := c.nearSlot, mark := c.pendingMark, composed := s.time.count }
    let clamp (x : Int) : Int := max (-2147483648) (min 2147483647 x)
    let taken (m : Option Motion) : State :=
      if r.hold = true ∧ r.fixPending = true then s.withRecord c.target { r with fixOverrun := true }
      else (s.withRecord c.target { r with
        fix := some f, motion := m, sequence := r.sequence + 1, fixPending := true, fixOverrun := r.fixOverrun || r.fixPending
        notices := r.notices ||| recordBit .fix }).judgeLine
    let goes (m : Option Motion) : Prop :=
      (r.params.fixInterval = 0 → exec (.reading tag distance) s = .next (rangeAsked { taken m with
          pursuit := some { c with rangeInFlight := true, pendingMark := none } }))
        ∧ (r.params.fixInterval ≠ 0 → exec (.reading tag distance) s = .next (sentNothing { taken m with
            ports := { s.ports with outstanding := none }
            pursuit := some { c with
              rangeInFlight := false, pendingMark := none
              fixWait := some (s.time.count + BitVec.ofNat 48 (r.params.fixInterval * 1000)) } }))
    (r.fix = none → goes none)
      ∧ ∀ p, r.fix = some p →
          let dt := (s.time.count - p.composed).toNat
          (dt = 0 ∨ 2000000 < dt ∨ p.near ≠ none ∨ c.nearSlot ≠ none → goes none)
            ∧ (1 ≤ dt → dt ≤ 2000000 → p.near = none → c.nearSlot = none →
                goes (some
                  ⟨clamp ((azimuthDifference captured p.direction * 1000000).tdiv dt),
                    clamp ((elevationDifference captured p.direction * 1000000).tdiv dt),
                    clamp (((f.range : Int) - p.range) * 1000000 |>.tdiv dt)⟩))

/-- READING of a LOCKED fixed record: the fix, written or discarded; with a reference the drift check on it, without one the position moved and AMBIG set where
the window then overlaps another; the revisit entry satisfied; and the end DONE of a REVISIT or INTERNAL request with no revisit DUE, the home check that
finds drift setting HOME, and the beam passed to the request that selection takes, or freed where none stands; under STATION or PENDANT origin the next
RANGE at once or, with a fix interval, the fix wait (R21, R36, R60, R76, R88, R97, R112, R114, R118, R119). -/
def Obligations.FixedRecordsAreCheckedForDrift : Prop :=
  ∀ (s : State) (tag : Byte) (distance quality : Nat) (g : Request) (c : Context) (r : Record) (q : RangeRequest) (captured : Direction),
    Pursuing s g c r → s.ports.outstanding = some q → q.tag = tag → c.stage = .locked → r.kind ≠ .roving →
    c.lastCaptured = some captured → c.latestIntensity = some quality → LineTellsCondition s →
    let f : Fix :=
      { direction := captured, range := distance + s.classes[r.cls.val].sphereOffset, stamp := s.time.count + s.time.offset
        quality := quality, near := c.nearSlot, mark := c.pendingMark, composed := s.time.count }
    let discarded := r.hold = true ∧ r.fixPending = true
    let taken (notices : BitVec 8) : Record :=
      { r with
        fix := some f, motion := none, sequence := r.sequence + 1, fixPending := true, fixOverrun := r.fixOverrun || r.fixPending
        notices := r.notices ||| recordBit .fix ||| notices, missCount := if (s.entryAt c.target.slot).isSome then 0 else r.missCount }
    let left (notices : BitVec 8) : Record :=
      { r with
        fixOverrun := true, notices := r.notices ||| notices, missCount := if (s.entryAt c.target.slot).isSome then 0 else r.missCount }
    let satisfied (t : State) : State :=
      if (s.entryAt c.target.slot).isSome then
        t.placeEntry { handle := c.target, due := s.time.count + BitVec.ofNat 48 (r.period * 1000000), status := .scheduled }
      else t
    let after (x : Record) : State := (satisfied (s.withRecord c.target x)).judgeLine
    let ends (x : Record) : Prop :=
      let done := after { x with state := .dormant, outcome := .done, lockLatch := false }
      let givenOn (t : State) := BeamGivenOn (.reading tag distance) s t c.target.slot
      (g.origin = .revisit → NothingDue s → givenOn done)
        ∧ (g.origin = .internal → NothingDue s → givenOn (if x.drift = .outside then done.setDeviceNotice .home else done))
        ∧ (g.origin = .station ∨ g.origin = .pendant → r.params.fixInterval = 0 →
            exec (.reading tag distance) s = .next (rangeAsked { after x with
              pursuit := some { c with rangeInFlight := true, pendingMark := none } }))
        ∧ (g.origin = .station ∨ g.origin = .pendant → r.params.fixInterval ≠ 0 →
            exec (.reading tag distance) s = .next (sentNothing { after x with
              ports := { s.ports with outstanding := none }
              pursuit := some { c with
                rangeInFlight := false, pendingMark := none
                fixWait := some (s.time.count + BitVec.ofNat 48 (r.params.fixInterval * 1000)) } }))
    (∀ (ref : Reference) (new : DriftState), r.reference = some ref →
        let d : Deviation :=
          { azimuth := azimuthDifference captured ref.direction, elevation := elevationDifference captured ref.direction
            range := (f.range : Int) - ref.range }
        let outside := r.angleTolerance < d.azimuth.natAbs ∨ r.angleTolerance < d.elevation.natAbs ∨ r.rangeTolerance < d.range.natAbs
        (outside → new = .outside) → (¬outside → new = .within) →
        let driftBit := if r.drift ≠ new ∧ ¬(r.drift = .none ∧ new = .within) then recordBit .drift else 0
        ends { (if discarded then left driftBit else taken driftBit) with lastDeviation := some d, drift := new })
      ∧ (r.reference = none →
          let overlaps := ∃ j, j ≠ c.target.slot ∧ WindowsOverlap (s.withRecord c.target (taken 0)) c.target.slot j
          (discarded → ends (left 0))
            ∧ (¬discarded → overlaps → ends (taken (recordBit .ambig)))
            ∧ (¬discarded → ¬overlaps → ends (taken 0)))

/-- FAIL of any reason, and the range timeout, which sets RANGE first: stale, or not yet due, no effect; in RANGING the failure starts a search, in LOCKED
it sends RANGE again, each counted once (R55, R62, R133, R134). That the timeout has no effect before its deadline is log 2. -/
def Obligations.RangeFailures : Prop :=
  ∀ (s : State) (tag : Byte) (why : RangeFailReason), s.resetnLow = false → s.scheduler.passWanted = false →
    let counted : State := { s with notices := { s.notices with rangeFailures := min 65535 (s.notices.rangeFailures + 1) } }
    ((∀ q, s.ports.outstanding = some q → q.tag ≠ tag) → exec (.fail tag why) s = .next (sentNothing s))
      ∧ ((∀ q, s.ports.outstanding = some q → ¬DeadlineReached s q.deadline) → exec .rangeTimeout s = .next (sentNothing s))
      ∧ ∀ g c r q, Pursuing s g c r → s.ports.outstanding = some q →
          let again : Context := { c with rangeInFlight := true }
          (q.tag = tag →
              (∀ captured, c.stage = .ranging → c.lastCaptured = some captured →
                exec (.fail tag why) s = .next (searchBegun counted c r captured))
              ∧ (c.stage = .locked → exec (.fail tag why) s = .next (rangeAsked { counted with pursuit := some again })))
            ∧ (DeadlineReached s q.deadline →
              (∀ captured, c.stage = .ranging → c.lastCaptured = some captured →
                exec .rangeTimeout s = .next (searchBegun (counted.setDeviceNotice .range) c r captured))
              ∧ (c.stage = .locked →
                  exec .rangeTimeout s = .next (rangeAsked { counted.setDeviceNotice .range with pursuit := some again })))

/-! ### The part's own deadlines -/

/-- The expiries of the coast deadline (a search), the search deadline (LOST, with no revisit DUE, the report of a REVISIT request whose entry is OFFERED, a
miss, or of the home check, HOME, and the beam passed to the request that selection takes, or freed), the fix wait (RANGE) and a due time (DUE while
frozen), each without effect before its time has come (log 2). The revisit of a DORMANT record that comes due at a free beam is offered and granted at
once; where no offer tops the grant one pass makes every offer in list order: passed over unless DORMANT, a miss without a position, ended by a full queue,
granted at a free beam, queued under a grant; and a single offer above the grant preempts it (R61, R67, R71, R74, R76, R87 to R92, R97, R108 to R111, R113,
R114). offersMade is the pass, beamTaken the preemption; that the pass stands at the end of the event is log 5. -/
def Obligations.DeadlinesExpire : Prop :=
  ∀ (s : State), s.resetnLow = false → s.scheduler.passWanted = false →
    ((∀ c d, s.pursuit = some c → c.coastDeadline = some d → ¬DeadlineReached s d) → exec .coastDeadlineExpiry s = .next (sentNothing s))
      ∧ ((∀ c sr, s.pursuit = some c → c.search = some sr → ¬DeadlineReached s sr.deadline) →
          exec .searchDeadlineExpiry s = .next (sentNothing s))
      ∧ ((∀ c d, s.pursuit = some c → c.fixWait = some d → ¬DeadlineReached s d) → exec .fixWaitExpiry s = .next (sentNothing s))
      ∧ ((∀ e ∈ s.scheduler.entries, e.status = .scheduled → ¬DeadlineReached s e.due) → exec .dueTimeExpiry s = .next (sentNothing s))
      ∧ (∀ g c r d, Pursuing s g c r → DeadlineReached s d →
          (∀ p, c.coastDeadline = some d → r.prediction g.aim s.time.count = some p →
              exec .coastDeadlineExpiry s = .next (searchBegun s c r p))
          ∧ (∀ sr, c.search = some sr → sr.deadline = d → c.stage = .searching → NothingDue s →
              let ends (t : State) := BeamGivenOn .searchDeadlineExpiry s t c.target.slot
              let lost (notices : BitVec 8) : Record :=
                { r with state := .dormant, outcome := .lost, notices := r.notices ||| recordBit .lost ||| notices }
              (g.origin = .station ∨ g.origin = .pendant → ends (s.withRecord c.target (lost 0)).judgeLine)
                ∧ (∀ e, g.origin = .revisit → s.entryAt c.target.slot = some e → e.status = .offered →
                  ends ((s.withRecord c.target
                    { lost (recordBit .miss) with missCount := min 15 (r.missCount + 1) }).judgeLine.placeEntry
                      { handle := c.target, due := s.time.count + BitVec.ofNat 48 (r.period * 1000000), status := .scheduled }))
                ∧ (g.origin = .internal → ends ((s.withRecord c.target (lost 0)).setDeviceNotice .home)))
          ∧ (c.fixWait = some d → exec .fixWaitExpiry s = .next
              (rangeAsked { s with pursuit := some { c with rangeInFlight := true, fixWait := none } })))
      ∧ (∀ before e later, s.scheduler.entries = before ++ e :: later → e.status = .scheduled → DeadlineReached s e.due →
          (∀ x ∈ before ++ later, x.handle.slot ≠ e.handle.slot) → (∀ x ∈ before, x.status = .scheduled → ¬DeadlineReached s x.due) →
          let marked (st : RevisitStatus) : State :=
            sentNothing { s with scheduler := { s.scheduler with entries := before ++ { e with status := st } :: later } }
          (s.scheduler.frozen = true → exec .dueTimeExpiry s = .next (marked .due))
          ∧ (s.scheduler.frozen = false → s.arbiter.runMode = .running → OffersStayBelow s → s.arbiter.arrivalCounter < 65500 →
              (s.scheduler.entries.map (·.handle.slot)).Nodup →
              exec .dueTimeExpiry s = .next (offersMade (dueEntries (marked .due)) (marked .due)))
          ∧ (∀ g c rg r d, Pursuing s g c rg → s.scheduler.frozen = false → NothingDue s → g.priority < s.arbiter.priorities.revisit →
              (∀ x ∈ s.arbiter.queue, x.request.priority ≤ g.priority ∧ x.request.handle.slot ≠ e.handle.slot) →
              (∀ x, s.arbiter.stack[3]? = some x → x.handle.slot ≠ g.handle.slot ∧ x.handle.slot ≠ e.handle.slot ∧ s.live x.handle ≠ none) →
              s.arbiter.queue.length < 12 → s.arbiter.arrivalCounter < 65534 → e.handle.slot ≠ g.handle.slot →
              s.live e.handle = some r → r.state = .dormant → r.position = some d →
              exec .dueTimeExpiry s = .next (beamTaken
                { marked .offered with arbiter := { s.arbiter with arrivalCounter := s.arbiter.arrivalCounter + 1 } } g rg (decide (c.stage = .locked))
                (requestOf e.handle .revisit s.arbiter.priorities.revisit none) r d))
          ∧ ∀ r d, s.scheduler.frozen = false → s.arbiter.runMode = .running → s.arbiter.grant = none → NoOtherRequest s →
            s.arbiter.arrivalCounter < 65535 → s.live e.handle = some r → r.state = .dormant → r.position = some d →
            exec .dueTimeExpiry s = .next (beamGranted
              { s.withRecord e.handle { r with state := .active .slewing } with scheduler :=
                { s.scheduler with entries := before ++ { e with status := .offered } :: later } }
              (requestOf e.handle .revisit s.arbiter.priorities.revisit none) d))

/-! ### The pendant link -/

/-- Frame errors are counted, a break once until the line returns to idle (the bit that keeps it is log 15's); a frame sent makes way for the next; and the
silence deadline, without effect before its time (log 2), makes the pendant absent and removes its queue entries, with no revisit DUE (R96, R193, R195,
R202). -/
def Obligations.PendantLineEvents : Prop :=
  ∀ (s : State) (e : PendantError), s.resetnLow = false → s.scheduler.passWanted = false →
    let hunting : State := { s with pendant :=
      { s.pendant with receiver := .hunting, inBreak := s.pendant.inBreak || decide (e = .lineBreak) } }
    let noted := if s.notices.pendantErrors = 0 then hunting.setDeviceNotice .link else hunting
    (e = .lineBreak → s.pendant.inBreak = true → exec (.pendantFrameError e) s = .next (sentNothing hunting))
      ∧ (¬(e = .lineBreak ∧ s.pendant.inBreak = true) → exec (.pendantFrameError e) s = .next (sentNothing { noted with notices :=
          { noted.notices with pendantErrors := min 255 (s.notices.pendantErrors + 1) } }))
      ∧ exec .lineReturnToIdle s = .next (sentNothing { s with pendant := { s.pendant with inBreak := false } })
      ∧ (s.pendant.sending = none → exec .statusFrameSent s = .next (sentNothing s))
      ∧ (∀ f, s.pendant.sending = some f → exec .statusFrameSent s = .next (sentNothing { s with pendant :=
          { s.pendant with sending := s.pendant.waiting.head?, waiting := s.pendant.waiting.tail } }))
      ∧ ((∀ d, s.pendant.silenceDeadline = some d → ¬DeadlineReached s d) → exec .pendantSilenceExpiry s = .next (sentNothing s))
      ∧ (∀ d, s.pendant.silenceDeadline = some d → DeadlineReached s d → NothingDue s →
          let gone (j : Fin 48) := ∃ x ∈ s.arbiter.queue, x.request.origin = .pendant ∧ x.request.handle = s.handleOf j
          ∃ t, exec .pendantSilenceExpiry s = .next t
            ∧ t.pendant = { s.pendant with present := false, silenceDeadline := none }
            ∧ t.notices = (s.setDeviceNotice .pendant).notices
            ∧ t.arbiter = { s.arbiter with queue := s.arbiter.queue.filter fun x => decide (x.request.origin ≠ .pendant) }
            ∧ (∀ j, (t.slotAt j).generation = (s.slotAt j).generation)
            ∧ (∀ j, s.recordAt j = none → t.recordAt j = none)
            ∧ (∀ j r, s.recordAt j = some r → gone j → t.recordAt j = some { r with state := .dormant, outcome := .released })
            ∧ (∀ j r, s.recordAt j = some r → ¬gone j → t.recordAt j = some r)
            ∧ t.pursuit = s.pursuit ∧ t.scheduler = s.scheduler ∧ t.ports = { s.ports with driveOut := [], rangeOut := [] }
            ∧ t.classes = s.classes ∧ t.time = s.time ∧ t.sweep = s.sweep
            ∧ t.table.stationWindow = s.table.stationWindow ∧ t.table.pendantWindow = s.table.pendantWindow)

/-- Every good frame is heard first; one of the wrong length answers RANGE under kind 0x80; the checks of an offset, in their order; POLL's OK; what a status
frame tells of a live record, of a VACANT slot and where it names no slot; its thirteen payload bytes and its frame, as 10.6 lays them out; and where it
goes (R194, R196, R197, R202, R203). -/
def Obligations.PendantChecksAndStatus : Prop :=
  ∀ (s : State) (o : Byte), s.resetnLow = false → s.scheduler.passWanted = false →
    let u := heard s
    let asks : List (Byte × Instr) :=
      [(3, .find [o]), (4, .letGo [o]), (5, .holdOn [o]), (6, .holdOff [o]), (7, .mark [o]), (8, .drop [o])]
    let refuses (a : Answer) (l : List (Byte × Instr)) := ∀ x ∈ l, exec x.2 s = .next (reportedBy (sentNothing u) x.1 a (some o) none)
    let offsetSlot (i : Fin 48) := o.toNat < s.table.pendantWindow.length ∧ i.val = s.table.pendantWindow.base + o.toNat
    (∀ c k p, pendantKindOf c = some (k, p) → p.length ≠ (if k = 2 then 0 else 1) →
        exec c s = .next (reportedBy (sentNothing u) 0 .range none none))
      ∧ (s.table.pendantWindow.length ≤ o.toNat → refuses .owner ((1, .poll [o]) :: asks))
      ∧ (∀ i, offsetSlot i → s.recordAt i = none → refuses .vacant ((1, .poll [o]) :: asks))
      ∧ (∀ i r, offsetSlot i → s.recordAt i = some r → r.owner = .station → refuses .owner ((1, .poll [o]) :: asks))
      ∧ (∀ i r, offsetSlot i → s.recordAt i = some r → r.owner = .pendant →
          exec (.poll [o]) s = .next (reportedBy (sentNothing u) 1 .ok (some o) none)
            ∧ (s.pendant.reported[i.val] ≠ some (s.slotAt i).generation → refuses .stale asks))
      ∧ (∀ k a mark i r, offsetSlot i → s.recordAt i = some r →
          let f := s.statusFrame k a (some o) mark
          f.kind = 0x80#8 + k ∧ f.answer = a ∧ f.offset = some o ∧ f.named = some { handle := s.handleOf i, state := some r.state }
            ∧ (∀ c, s.pursuit = some c → c.target = s.handleOf i → f.intensity = c.latestIntensity)
            ∧ ((∀ c, s.pursuit = some c → c.target ≠ s.handleOf i) → f.intensity = none)
            ∧ f.fixRange = r.fix.map (·.range) ∧ (mark = none → f.mark = r.fix.bind (·.mark)) ∧ (mark ≠ none → f.mark = mark)
            ∧ (s.sendStatus f).pendant.reported = s.pendant.reported.set i.val (some (s.slotAt i).generation) i.isLt)
      ∧ (∀ k a mark i, offsetSlot i → s.recordAt i = none → (∀ c, s.pursuit = some c → c.target ≠ s.handleOf i) →
          let f := s.statusFrame k a (some o) mark
          f = { kind := 0x80#8 + k, answer := a, offset := some o, named := some { handle := s.handleOf i, state := none }
                intensity := none, fixRange := none, mark := mark }
            ∧ (s.sendStatus f).pendant.reported = s.pendant.reported.set i.val (some (s.slotAt i).generation) i.isLt)
      ∧ (∀ k a mark offset, (offset = none ∨ offset = some o ∧ s.table.pendantWindow.length ≤ o.toNat) →
          let f := s.statusFrame k a offset mark
          f = { kind := 0x80#8 + k, answer := a, offset := offset, named := none, intensity := none, fixRange := none, mark := mark }
            ∧ (s.sendStatus f).pendant.reported = s.pendant.reported)
      ∧ (∀ f : StatusFrame, ∃ (name : List Byte) (flags : Byte),
          (∀ n, f.named = some n → name = [BitVec.ofNat 8 n.handle.slot.val, n.handle.generation, stateCode n.state])
            ∧ (f.named = none → name = [0xFF#8, 0x00#8, 0xFF#8])
            ∧ flags.getLsbD 0 = f.intensity.isSome ∧ flags.getLsbD 1 = f.fixRange.isSome ∧ flags.getLsbD 2 = f.mark.isSome ∧ flags.toNat < 8
            ∧ f.payload = [answerCode f.answer, f.offset.getD 0xFF#8] ++ name ++ [flags] ++ bytes2 (BitVec.ofNat 16 (f.intensity.getD 0))
                ++ bytes4 (BitVec.ofNat 32 (f.fixRange.getD 0)) ++ [f.mark.getD 0]
            ∧ f.payload.length = 13
            ∧ f.bytes = 0xA7#8 :: 13#8 :: f.kind :: f.payload ++ [f.payload.foldl (· ^^^ ·) (13#8 ^^^ f.kind)])
      ∧ ∀ f : StatusFrame,
          let p := (s.sendStatus f).pendant
          (s.pendant.sending = none → p.sending = some f ∧ p.waiting = s.pendant.waiting)
            ∧ (∀ x, s.pendant.sending = some x → p.sending = some x
                ∧ (s.pendant.waiting.length < 4 → p.waiting = s.pendant.waiting ++ [f])
                ∧ (4 ≤ s.pendant.waiting.length → p.waiting = s.pendant.waiting.tail ++ [f]))

/-- CLAIM-NEW makes a PENDANT-owned ROVING record of class 0 in the lowest VACANT slot of the pendant window, or answers FULL; MARK issues the next mark of
a LOCKED record and hands it to the pursuit, or answers NOTLOCKED (R65, R198, R201). -/
def Obligations.PendantClaimsAndMarks : Prop :=
  let made : Record :=
    { kind := .roving, cls := 0, owner := .pendant, state := .dormant, outcome := .none, autoResume := true
      hold := false, fix := none, sequence := 0, fixPending := false, fixOverrun := false, motion := none, reference := none
      angleTolerance := 100, rangeTolerance := 200, drift := .none, lastDeviation := none
      params := { window := 0, coastTime := 300, fixInterval := 0, searchRings := 6, searchLimit := 15000 }
      period := 0, missCount := 0, breaks := 0, searches := 0, ambiguities := 0, lockLatch := false, notices := 0 }
  ∀ (s : State) (o : Byte), s.resetnLow = false → s.scheduler.passWanted = false →
    let u := sentNothing (heard s)
    ((∀ i, s.table.pendantWindow.contains i = true → s.recordAt i ≠ none) →
        exec (.claimNew []) s = .next (reportedBy u 2 .full none none))
      ∧ (∀ i, s.table.pendantWindow.contains i = true → s.recordAt i = none →
          (∀ j, j < i → s.table.pendantWindow.contains j = true → s.recordAt j ≠ none) →
          exec (.claimNew []) s = .next (reportedBy (u.setSlot i { generation := (s.slotAt i).generation, record := some made }) 2 .ok
            (some (BitVec.ofNat 8 (i.val - s.table.pendantWindow.base))) none))
      ∧ (∀ i r, PendantHolds s o i r → r.state ≠ .active .locked → exec (.mark [o]) s = .next (reportedBy u 7 .notLocked (some o) none))
      ∧ (∀ i r c, PendantHolds s o i r → r.state = .active .locked → s.pursuit = some c →
          let m := if s.pendant.markCounter = 255 then 1 else s.pendant.markCounter + 1
          exec (.mark [o]) s = .next (reportedBy
            { u with pendant := { u.pendant with markCounter := m }, pursuit := some { c with pendingMark := some m } } 7 .ok (some o) (some m)))

/-- FIND is PURSUE under PENDANT origin: PARKED; of an active, a SUSPENDED and a QUEUED record; with no prediction; with a full queue; at a free beam; under a
held grant, queued at or below it, or preempting it; and by a merge that brings the record above it. LET-GO is RELEASE, in every state of the record, and
spelled out of a DORMANT, a QUEUED and an active one; HOLD-ON and HOLD-OFF write hold; DROP is RETIRE, in every state (of the record as the station would
own it), and spelled out of a DORMANT one (R84, R86, R88 to R92, R199, R200). -/
def Obligations.PendantRequestsAct : Prop :=
  ∀ (s : State) (o : Byte) (i : Fin 48) (r : Record), PendantHolds s o i r →
    let u := sentNothing (heard s)
    let h := s.handleOf i
    let slot := BitVec.ofNat 8 i.val
    let p := s.arbiter.priorities.pendant
    let q := requestOf h .pendant p none
    let released := u.withRecord h { r with state := .dormant, outcome := .released }
    let raised (x : Request) : Request := { x with priority := max x.priority p }
    let merged := s.arbiter.queue.map fun e => if e.request.handle.slot = i then { e with request := raised e.request } else e
    let counted : State := { u with arbiter := { s.arbiter with arrivalCounter := s.arbiter.arrivalCounter + 1 } }
    let asStation := (heard s).withRecord h { r with owner := .station }
    (s.arbiter.runMode = .parked → exec (.find [o]) s = .next (reportedBy u 3 .parked (some o) none))
      ∧ (s.arbiter.runMode = .running →
          (∀ st, r.state = .active st → exec (.find [o]) s = .next (reportedBy u 3 .already (some o) none))
          ∧ (r.state = .dormant → r.prediction none s.time.count = none → exec (.find [o]) s = .next (reportedBy u 3 .noAim (some o) none))
          ∧ (r.state = .dormant → r.prediction none s.time.count ≠ none → 12 ≤ s.arbiter.queue.length →
              exec (.find [o]) s = .next (reportedBy u 3 .full (some o) none))
          ∧ (∀ d, r.state = .dormant → r.prediction none s.time.count = some d → s.arbiter.grant = none → NoOtherRequest s →
              s.arbiter.arrivalCounter < 65535 →
              exec (.find [o]) s = .next (reportedBy (beamGranted (u.withRecord h { r with state := .active .slewing }) q d) 3 .ok (some o) none))
          ∧ (∀ g, r.state = .dormant → r.prediction none s.time.count ≠ none → s.arbiter.grant = some g → p ≤ g.priority →
              (∀ e ∈ s.arbiter.queue, e.request.priority ≤ g.priority) → s.arbiter.queue.length < 12 → s.arbiter.arrivalCounter < 65535 →
              exec (.find [o]) s = .next (reportedBy { counted.withRecord h { r with state := .queued } with arbiter := { counted.arbiter with
                queue := s.arbiter.queue ++ [{ request := q, arrival := s.arbiter.arrivalCounter }] } } 3 .ok (some o) none))
          ∧ (∀ g c rg d, r.state = .dormant → r.prediction none s.time.count = some d → Pursuing s g c rg → NothingDue s → g.priority < p →
              (∀ e ∈ s.arbiter.queue, e.request.priority ≤ g.priority ∧ e.request.handle.slot ≠ i) → s.arbiter.queue.length < 12 →
              (∀ x, s.arbiter.stack[3]? = some x → x.handle.slot ≠ g.handle.slot ∧ x.handle.slot ≠ i ∧ s.live x.handle ≠ none) →
              s.arbiter.arrivalCounter < 65534 → i ≠ g.handle.slot →
              exec (.find [o]) s = .next (reportedBy (beamTaken counted g rg (decide (c.stage = .locked)) q r d) 3 .ok (some o) none))
          ∧ (r.state = .suspended → exec (.find [o]) s = .next (reportedBy
              (u.setStack (s.arbiter.stack.map fun x => if x.handle.slot = i then raised x else x)) 3 .already (some o) none))
          ∧ (∀ g, r.state = .queued → s.arbiter.grant = some g → (∀ e ∈ merged, e.request.priority ≤ g.priority) →
              exec (.find [o]) s = .next (reportedBy (u.setQueue merged) 3 .already (some o) none))
          ∧ (∀ g c rg w rw d, r.state = .queued → Pursuing s g c rg → NothingDue s → QueueDistinct merged → w ∈ merged →
              (∀ x ∈ merged, x.request.priority < w.request.priority ∨ x.request.priority = w.request.priority ∧ w.arrival ≤ x.arrival) →
              g.priority < w.request.priority → w.request.handle.slot ≠ g.handle.slot →
              (∀ x, s.arbiter.stack[3]? = some x →
                x.handle.slot ≠ g.handle.slot ∧ x.handle.slot ≠ w.request.handle.slot ∧ s.live x.handle ≠ none) →
              s.arbiter.arrivalCounter < 65535 → s.live w.request.handle = some rw → rw.prediction w.request.aim s.time.count = some d →
              exec (.find [o]) s = .next (reportedBy (beamTaken
                (u.setQueue (merged.filter fun x => decide (x.request.handle.slot ≠ w.request.handle.slot))) g rg (decide (c.stage = .locked))
                w.request rw d) 3 .already (some o) none)))
      ∧ (∃ w, exec (.release slot h.generation) (heard s) = .next w ∧ ∃ a, w.link.response = some (noPayload a)
          ∧ exec (.letGo [o]) s = .next (reportedBy { w with link := u.link } 4 a (some o) none))
      ∧ (r.state = .dormant → exec (.letGo [o]) s = .next (reportedBy u 4 .already (some o) none))
      ∧ (∀ e, r.state = .queued → s.queuedAt i = some e → (e.request.origin = .station ∨ e.request.origin = .pendant) → NothingDue s →
          exec (.letGo [o]) s = .next (reportedBy
            (released.setQueue (s.arbiter.queue.filter fun x => decide (x.request.handle.slot ≠ i))) 4 .ok (some o) none))
      ∧ (∀ st g c, r.state = .active st → Pursuing s g c r → c.target = h → NoOtherRequest s → (g.origin = .station ∨ g.origin = .pendant) →
          exec (.letGo [o]) s = .next (reportedBy (beamFreed released) 4 .ok (some o) none))
      ∧ exec (.holdOn [o]) s = .next (if r.hold then reportedBy u 5 .already (some o) none
          else reportedBy (u.withRecord h { r with hold := true }) 5 .ok (some o) none)
      ∧ exec (.holdOff [o]) s = .next (if r.hold then reportedBy (u.withRecord h { r with hold := false }) 6 .ok (some o) none
          else reportedBy u 6 .already (some o) none)
      ∧ (i ≠ 0 → ∃ w, exec (.retire slot h.generation) asStation = .next w ∧ w.link.response = some (noPayload .ok)
          ∧ exec (.drop [o]) s = .next (reportedBy { w with link := u.link } 8 .ok (some o) none))
      ∧ (i ≠ 0 → r.state = .dormant →
          exec (.drop [o]) s = .next (reportedBy
            ((u.removeEntry i).setSlot i { generation := (s.slotAt i).generation + 1, record := none }).judgeLine 8 .ok (some o) none))

/-! ### What every step keeps -/

/-- Every step keeps slot 0's HOME record (R3), the allocation windows with the PENDANT-owned records inside theirs (R7, R8), and the fit of every
record's fields (1.3, R4, R16, R21). -/
def Obligations.StepKeepsRecords : Prop :=
  ∀ s s' : State, HomeStays s ∧ WindowsLegal s ∧ RecordsLegal s → step s = .next s' → HomeStays s' ∧ WindowsLegal s' ∧ RecordsLegal s'

/-- Every step keeps the NOTICE line equal to its condition (R149), READY equal to a pending response (R182), the class and priority tables in range (R27,
R82), the stores and counters in their bounds (R103, R152, R175, R202), and the revisit list in its order, with one entry for each live fixed record that
has a period and no other (R103, R105, R106, R107). That the order compares due times as numbers is the model's choice (log 13). -/
def Obligations.StepKeepsLinesAndBounds : Prop :=
  ∀ s s' : State, LineTellsCondition s ∧ LinkLegal s ∧ TablesInRange s ∧ StoresBounded s ∧ ListLegal s → step s = .next s' →
    LineTellsCondition s' ∧ LinkLegal s' ∧ TablesInRange s' ∧ StoresBounded s' ∧ ListLegal s'

/-- Every step keeps the grant, the context, the queue, the stack and the states of the records in agreement (R46, R79, R80, R81, R99, R109), an OFFERED entry
with a REVISIT request (R104), and selection done: nothing waits for an empty grant, and no queued priority is above the grant's (R88, R89). The revisit
list's own properties, its order by number (log 13) among them, are the premise ListLegal, which the statement above keeps; that no trigger of a pass is
left over at the end of an event is the model's (log 5). -/
def Obligations.StepKeepsBeam : Prop :=
  ∀ s s' : State, ListLegal s → BeamLegal s ∧ StatesAgree s ∧ OffersStand s ∧ SelectionDone s → step s = .next s' →
    BeamLegal s' ∧ StatesAgree s' ∧ OffersStand s' ∧ SelectionDone s'

/-- The machine after reset has every property that the three statements above keep (the list's order by number: log 13; no trigger left over: log 5). -/
def Obligations.ResetIsLegal : Prop :=
  let s := State.reset
  HomeStays s ∧ WindowsLegal s ∧ RecordsLegal s ∧ LineTellsCondition s ∧ LinkLegal s ∧ TablesInRange s ∧ StoresBounded s ∧ ListLegal s
    ∧ BeamLegal s ∧ StatesAgree s ∧ OffersStand s ∧ SelectionDone s
end

