-- ==== Sys2Proof/Laws/State.lean ====
section
/-! SUPPORT. The fields of each plain update of State: one theorem per update, its fields side by side, all true by rfl, so that simp reads a field of an
updated state without unfolding the update. -/

namespace Sys2Proof.Machine

variable (s : State)

@[simp] theorem setSlot_fields (i : Fin 48) (v : Slot) :
    (s.setSlot i v).resetnLow = s.resetnLow ∧ (s.setSlot i v).classes = s.classes ∧ (s.setSlot i v).pursuit = s.pursuit
      ∧ (s.setSlot i v).arbiter = s.arbiter ∧ (s.setSlot i v).scheduler = s.scheduler ∧ (s.setSlot i v).ports = s.ports
      ∧ (s.setSlot i v).time = s.time ∧ (s.setSlot i v).notices = s.notices ∧ (s.setSlot i v).sweep = s.sweep ∧ (s.setSlot i v).link = s.link
      ∧ (s.setSlot i v).pendant = s.pendant ∧ (s.setSlot i v).pending = s.pending := by
  refine ⟨?_, ?_, ?_, ?_, ?_, ?_, ?_, ?_, ?_, ?_, ?_, ?_⟩ <;> rfl

@[simp] theorem setContext_fields (c : Option Context) :
    (s.setContext c).pursuit = c ∧ (s.setContext c).resetnLow = s.resetnLow ∧ (s.setContext c).table = s.table ∧ (s.setContext c).classes = s.classes
      ∧ (s.setContext c).arbiter = s.arbiter ∧ (s.setContext c).scheduler = s.scheduler ∧ (s.setContext c).ports = s.ports
      ∧ (s.setContext c).time = s.time ∧ (s.setContext c).notices = s.notices ∧ (s.setContext c).sweep = s.sweep ∧ (s.setContext c).link = s.link
      ∧ (s.setContext c).pendant = s.pendant ∧ (s.setContext c).pending = s.pending := by
  refine ⟨?_, ?_, ?_, ?_, ?_, ?_, ?_, ?_, ?_, ?_, ?_, ?_, ?_⟩ <;> rfl

@[simp] theorem setGrant_fields (g : Option Request) :
    (s.setGrant g).arbiter = { s.arbiter with grant := g } ∧ (s.setGrant g).resetnLow = s.resetnLow ∧ (s.setGrant g).table = s.table
      ∧ (s.setGrant g).classes = s.classes ∧ (s.setGrant g).pursuit = s.pursuit ∧ (s.setGrant g).scheduler = s.scheduler
      ∧ (s.setGrant g).ports = s.ports ∧ (s.setGrant g).time = s.time ∧ (s.setGrant g).notices = s.notices ∧ (s.setGrant g).sweep = s.sweep
      ∧ (s.setGrant g).link = s.link ∧ (s.setGrant g).pendant = s.pendant ∧ (s.setGrant g).pending = s.pending := by
  refine ⟨?_, ?_, ?_, ?_, ?_, ?_, ?_, ?_, ?_, ?_, ?_, ?_, ?_⟩ <;> rfl

@[simp] theorem setQueue_fields (q : List QueueEntry) :
    (s.setQueue q).arbiter = { s.arbiter with queue := q } ∧ (s.setQueue q).resetnLow = s.resetnLow ∧ (s.setQueue q).table = s.table
      ∧ (s.setQueue q).classes = s.classes ∧ (s.setQueue q).pursuit = s.pursuit ∧ (s.setQueue q).scheduler = s.scheduler
      ∧ (s.setQueue q).ports = s.ports ∧ (s.setQueue q).time = s.time ∧ (s.setQueue q).notices = s.notices ∧ (s.setQueue q).sweep = s.sweep
      ∧ (s.setQueue q).link = s.link ∧ (s.setQueue q).pendant = s.pendant ∧ (s.setQueue q).pending = s.pending := by
  refine ⟨?_, ?_, ?_, ?_, ?_, ?_, ?_, ?_, ?_, ?_, ?_, ?_, ?_⟩ <;> rfl

@[simp] theorem setStack_fields (t : List Request) :
    (s.setStack t).arbiter = { s.arbiter with stack := t } ∧ (s.setStack t).resetnLow = s.resetnLow ∧ (s.setStack t).table = s.table
      ∧ (s.setStack t).classes = s.classes ∧ (s.setStack t).pursuit = s.pursuit ∧ (s.setStack t).scheduler = s.scheduler
      ∧ (s.setStack t).ports = s.ports ∧ (s.setStack t).time = s.time ∧ (s.setStack t).notices = s.notices ∧ (s.setStack t).sweep = s.sweep
      ∧ (s.setStack t).link = s.link ∧ (s.setStack t).pendant = s.pendant ∧ (s.setStack t).pending = s.pending := by
  refine ⟨?_, ?_, ?_, ?_, ?_, ?_, ?_, ?_, ?_, ?_, ?_, ?_, ?_⟩ <;> rfl

@[simp] theorem setRunMode_fields (m : RunMode) :
    (s.setRunMode m).arbiter = { s.arbiter with runMode := m } ∧ (s.setRunMode m).resetnLow = s.resetnLow ∧ (s.setRunMode m).table = s.table
      ∧ (s.setRunMode m).classes = s.classes ∧ (s.setRunMode m).pursuit = s.pursuit ∧ (s.setRunMode m).scheduler = s.scheduler
      ∧ (s.setRunMode m).ports = s.ports ∧ (s.setRunMode m).time = s.time ∧ (s.setRunMode m).notices = s.notices ∧ (s.setRunMode m).sweep = s.sweep
      ∧ (s.setRunMode m).link = s.link ∧ (s.setRunMode m).pendant = s.pendant ∧ (s.setRunMode m).pending = s.pending := by
  refine ⟨?_, ?_, ?_, ?_, ?_, ?_, ?_, ?_, ?_, ?_, ?_, ?_, ?_⟩ <;> rfl

@[simp] theorem setArrivalCounter_fields (n : Nat) :
    (s.setArrivalCounter n).arbiter = { s.arbiter with arrivalCounter := n } ∧ (s.setArrivalCounter n).resetnLow = s.resetnLow
      ∧ (s.setArrivalCounter n).table = s.table ∧ (s.setArrivalCounter n).classes = s.classes ∧ (s.setArrivalCounter n).pursuit = s.pursuit
      ∧ (s.setArrivalCounter n).scheduler = s.scheduler ∧ (s.setArrivalCounter n).ports = s.ports ∧ (s.setArrivalCounter n).time = s.time
      ∧ (s.setArrivalCounter n).notices = s.notices ∧ (s.setArrivalCounter n).sweep = s.sweep ∧ (s.setArrivalCounter n).link = s.link
      ∧ (s.setArrivalCounter n).pendant = s.pendant ∧ (s.setArrivalCounter n).pending = s.pending := by
  refine ⟨?_, ?_, ?_, ?_, ?_, ?_, ?_, ?_, ?_, ?_, ?_, ?_, ?_⟩ <;> rfl

@[simp] theorem setPriorities_fields (p : PriorityTable) :
    (s.setPriorities p).arbiter = { s.arbiter with priorities := p } ∧ (s.setPriorities p).resetnLow = s.resetnLow
      ∧ (s.setPriorities p).table = s.table ∧ (s.setPriorities p).classes = s.classes ∧ (s.setPriorities p).pursuit = s.pursuit
      ∧ (s.setPriorities p).scheduler = s.scheduler ∧ (s.setPriorities p).ports = s.ports ∧ (s.setPriorities p).time = s.time
      ∧ (s.setPriorities p).notices = s.notices ∧ (s.setPriorities p).sweep = s.sweep ∧ (s.setPriorities p).link = s.link
      ∧ (s.setPriorities p).pendant = s.pendant ∧ (s.setPriorities p).pending = s.pending := by
  refine ⟨?_, ?_, ?_, ?_, ?_, ?_, ?_, ?_, ?_, ?_, ?_, ?_, ?_⟩ <;> rfl

@[simp] theorem setEntries_fields (l : List RevisitEntry) :
    (s.setEntries l).scheduler = { s.scheduler with entries := l } ∧ (s.setEntries l).resetnLow = s.resetnLow ∧ (s.setEntries l).table = s.table
      ∧ (s.setEntries l).classes = s.classes ∧ (s.setEntries l).pursuit = s.pursuit ∧ (s.setEntries l).arbiter = s.arbiter
      ∧ (s.setEntries l).ports = s.ports ∧ (s.setEntries l).time = s.time ∧ (s.setEntries l).notices = s.notices ∧ (s.setEntries l).sweep = s.sweep
      ∧ (s.setEntries l).link = s.link ∧ (s.setEntries l).pendant = s.pendant ∧ (s.setEntries l).pending = s.pending := by
  refine ⟨?_, ?_, ?_, ?_, ?_, ?_, ?_, ?_, ?_, ?_, ?_, ?_, ?_⟩ <;> rfl

@[simp] theorem setFrozen_fields (b : Bool) :
    (s.setFrozen b).scheduler = { s.scheduler with frozen := b } ∧ (s.setFrozen b).resetnLow = s.resetnLow ∧ (s.setFrozen b).table = s.table
      ∧ (s.setFrozen b).classes = s.classes ∧ (s.setFrozen b).pursuit = s.pursuit ∧ (s.setFrozen b).arbiter = s.arbiter
      ∧ (s.setFrozen b).ports = s.ports ∧ (s.setFrozen b).time = s.time ∧ (s.setFrozen b).notices = s.notices ∧ (s.setFrozen b).sweep = s.sweep
      ∧ (s.setFrozen b).link = s.link ∧ (s.setFrozen b).pendant = s.pendant ∧ (s.setFrozen b).pending = s.pending := by
  refine ⟨?_, ?_, ?_, ?_, ?_, ?_, ?_, ?_, ?_, ?_, ?_, ?_, ?_⟩ <;> rfl

@[simp] theorem setPassWanted_fields (b : Bool) :
    (s.setPassWanted b).scheduler = { s.scheduler with passWanted := b } ∧ (s.setPassWanted b).resetnLow = s.resetnLow
      ∧ (s.setPassWanted b).table = s.table ∧ (s.setPassWanted b).classes = s.classes ∧ (s.setPassWanted b).pursuit = s.pursuit
      ∧ (s.setPassWanted b).arbiter = s.arbiter ∧ (s.setPassWanted b).ports = s.ports ∧ (s.setPassWanted b).time = s.time
      ∧ (s.setPassWanted b).notices = s.notices ∧ (s.setPassWanted b).sweep = s.sweep ∧ (s.setPassWanted b).link = s.link
      ∧ (s.setPassWanted b).pendant = s.pendant ∧ (s.setPassWanted b).pending = s.pending := by
  refine ⟨?_, ?_, ?_, ?_, ?_, ?_, ?_, ?_, ?_, ?_, ?_, ?_, ?_⟩ <;> rfl

@[simp] theorem sendMove_fields (d : Direction) :
    (s.sendMove d).resetnLow = s.resetnLow ∧ (s.sendMove d).table = s.table ∧ (s.sendMove d).classes = s.classes ∧ (s.sendMove d).pursuit = s.pursuit
      ∧ (s.sendMove d).arbiter = s.arbiter ∧ (s.sendMove d).scheduler = s.scheduler ∧ (s.sendMove d).time = s.time
      ∧ (s.sendMove d).notices = s.notices ∧ (s.sendMove d).sweep = s.sweep ∧ (s.sendMove d).link = s.link ∧ (s.sendMove d).pendant = s.pendant
      ∧ (s.sendMove d).pending = s.pending := by
  refine ⟨?_, ?_, ?_, ?_, ?_, ?_, ?_, ?_, ?_, ?_, ?_, ?_⟩ <;> rfl

@[simp] theorem sendFollow_fields (d : Direction) :
    (s.sendFollow d).resetnLow = s.resetnLow ∧ (s.sendFollow d).table = s.table ∧ (s.sendFollow d).classes = s.classes
      ∧ (s.sendFollow d).pursuit = s.pursuit ∧ (s.sendFollow d).arbiter = s.arbiter ∧ (s.sendFollow d).scheduler = s.scheduler
      ∧ (s.sendFollow d).time = s.time ∧ (s.sendFollow d).notices = s.notices ∧ (s.sendFollow d).sweep = s.sweep ∧ (s.sendFollow d).link = s.link
      ∧ (s.sendFollow d).pendant = s.pendant ∧ (s.sendFollow d).pending = s.pending := by
  refine ⟨?_, ?_, ?_, ?_, ?_, ?_, ?_, ?_, ?_, ?_, ?_, ?_⟩ <;> rfl

@[simp] theorem sendHalt_fields :
    s.sendHalt.resetnLow = s.resetnLow ∧ s.sendHalt.table = s.table ∧ s.sendHalt.classes = s.classes ∧ s.sendHalt.pursuit = s.pursuit
      ∧ s.sendHalt.arbiter = s.arbiter ∧ s.sendHalt.scheduler = s.scheduler ∧ s.sendHalt.time = s.time ∧ s.sendHalt.notices = s.notices
      ∧ s.sendHalt.sweep = s.sweep ∧ s.sendHalt.link = s.link ∧ s.sendHalt.pendant = s.pendant ∧ s.sendHalt.pending = s.pending := by
  refine ⟨?_, ?_, ?_, ?_, ?_, ?_, ?_, ?_, ?_, ?_, ?_, ?_⟩ <;> rfl

@[simp] theorem sendRange_fields :
    s.sendRange.resetnLow = s.resetnLow ∧ s.sendRange.table = s.table ∧ s.sendRange.classes = s.classes ∧ s.sendRange.pursuit = s.pursuit
      ∧ s.sendRange.arbiter = s.arbiter ∧ s.sendRange.scheduler = s.scheduler ∧ s.sendRange.time = s.time ∧ s.sendRange.notices = s.notices
      ∧ s.sendRange.sweep = s.sweep ∧ s.sendRange.link = s.link ∧ s.sendRange.pendant = s.pendant ∧ s.sendRange.pending = s.pending := by
  refine ⟨?_, ?_, ?_, ?_, ?_, ?_, ?_, ?_, ?_, ?_, ?_, ?_⟩ <;> rfl

@[simp] theorem withdrawRange_fields :
    (s.withdrawRange).ports = { s.ports with outstanding := none } ∧ s.withdrawRange.resetnLow = s.resetnLow ∧ s.withdrawRange.table = s.table
      ∧ s.withdrawRange.classes = s.classes ∧ s.withdrawRange.pursuit = s.pursuit ∧ s.withdrawRange.arbiter = s.arbiter
      ∧ s.withdrawRange.scheduler = s.scheduler ∧ s.withdrawRange.time = s.time ∧ s.withdrawRange.notices = s.notices
      ∧ s.withdrawRange.sweep = s.sweep ∧ s.withdrawRange.link = s.link ∧ s.withdrawRange.pendant = s.pendant ∧ s.withdrawRange.pending = s.pending := by
  refine ⟨?_, ?_, ?_, ?_, ?_, ?_, ?_, ?_, ?_, ?_, ?_, ?_, ?_⟩ <;> rfl

@[simp] theorem setExpectedFrame_fields (n : Option Byte) :
    (s.setExpectedFrame n).ports = { s.ports with expectedFrame := n } ∧ (s.setExpectedFrame n).resetnLow = s.resetnLow
      ∧ (s.setExpectedFrame n).table = s.table ∧ (s.setExpectedFrame n).classes = s.classes ∧ (s.setExpectedFrame n).pursuit = s.pursuit
      ∧ (s.setExpectedFrame n).arbiter = s.arbiter ∧ (s.setExpectedFrame n).scheduler = s.scheduler ∧ (s.setExpectedFrame n).time = s.time
      ∧ (s.setExpectedFrame n).notices = s.notices ∧ (s.setExpectedFrame n).sweep = s.sweep ∧ (s.setExpectedFrame n).link = s.link
      ∧ (s.setExpectedFrame n).pendant = s.pendant ∧ (s.setExpectedFrame n).pending = s.pending := by
  refine ⟨?_, ?_, ?_, ?_, ?_, ?_, ?_, ?_, ?_, ?_, ?_, ?_, ?_⟩ <;> rfl

@[simp] theorem setOffset_fields (o : Time) :
    (s.setOffset o).time = { s.time with offset := o } ∧ (s.setOffset o).resetnLow = s.resetnLow ∧ (s.setOffset o).table = s.table
      ∧ (s.setOffset o).classes = s.classes ∧ (s.setOffset o).pursuit = s.pursuit ∧ (s.setOffset o).arbiter = s.arbiter
      ∧ (s.setOffset o).scheduler = s.scheduler ∧ (s.setOffset o).ports = s.ports ∧ (s.setOffset o).notices = s.notices
      ∧ (s.setOffset o).sweep = s.sweep ∧ (s.setOffset o).link = s.link ∧ (s.setOffset o).pendant = s.pendant ∧ (s.setOffset o).pending = s.pending := by
  refine ⟨?_, ?_, ?_, ?_, ?_, ?_, ?_, ?_, ?_, ?_, ?_, ?_, ?_⟩ <;> rfl

@[simp] theorem count_fields :
    (s.count).time = { s.time with count := s.time.count + 1 } ∧ s.count.resetnLow = s.resetnLow ∧ s.count.table = s.table
      ∧ s.count.classes = s.classes ∧ s.count.pursuit = s.pursuit ∧ s.count.arbiter = s.arbiter ∧ s.count.scheduler = s.scheduler
      ∧ s.count.ports = s.ports ∧ s.count.notices = s.notices ∧ s.count.sweep = s.sweep ∧ s.count.link = s.link ∧ s.count.pendant = s.pendant
      ∧ s.count.pending = s.pending := by
  refine ⟨?_, ?_, ?_, ?_, ?_, ?_, ?_, ?_, ?_, ?_, ?_, ?_, ?_⟩ <;> rfl

@[simp] theorem judgeLine_fields :
    s.judgeLine.resetnLow = s.resetnLow ∧ s.judgeLine.table = s.table ∧ s.judgeLine.classes = s.classes ∧ s.judgeLine.pursuit = s.pursuit
      ∧ s.judgeLine.arbiter = s.arbiter ∧ s.judgeLine.scheduler = s.scheduler ∧ s.judgeLine.ports = s.ports ∧ s.judgeLine.time = s.time
      ∧ s.judgeLine.sweep = s.sweep ∧ s.judgeLine.link = s.link ∧ s.judgeLine.pendant = s.pendant ∧ s.judgeLine.pending = s.pending := by
  refine ⟨?_, ?_, ?_, ?_, ?_, ?_, ?_, ?_, ?_, ?_, ?_, ?_⟩ <;> rfl

@[simp] theorem clearCounters_fields :
    s.clearCounters.resetnLow = s.resetnLow ∧ s.clearCounters.table = s.table ∧ s.clearCounters.classes = s.classes
      ∧ s.clearCounters.pursuit = s.pursuit ∧ s.clearCounters.arbiter = s.arbiter ∧ s.clearCounters.scheduler = s.scheduler
      ∧ s.clearCounters.ports = s.ports ∧ s.clearCounters.time = s.time ∧ s.clearCounters.sweep = s.sweep ∧ s.clearCounters.link = s.link
      ∧ s.clearCounters.pendant = s.pendant ∧ s.clearCounters.pending = s.pending := by
  refine ⟨?_, ?_, ?_, ?_, ?_, ?_, ?_, ?_, ?_, ?_, ?_, ?_⟩ <;> rfl

@[simp] theorem setSweep_fields (w : SweepUnit) :
    (s.setSweep w).sweep = w ∧ (s.setSweep w).resetnLow = s.resetnLow ∧ (s.setSweep w).table = s.table ∧ (s.setSweep w).classes = s.classes
      ∧ (s.setSweep w).pursuit = s.pursuit ∧ (s.setSweep w).arbiter = s.arbiter ∧ (s.setSweep w).scheduler = s.scheduler
      ∧ (s.setSweep w).ports = s.ports ∧ (s.setSweep w).time = s.time ∧ (s.setSweep w).notices = s.notices ∧ (s.setSweep w).link = s.link
      ∧ (s.setSweep w).pendant = s.pendant ∧ (s.setSweep w).pending = s.pending := by
  refine ⟨?_, ?_, ?_, ?_, ?_, ?_, ?_, ?_, ?_, ?_, ?_, ?_, ?_⟩ <;> rfl

@[simp] theorem shiftOut_fields (x : Option Response) (n : Nat) :
    (s.shiftOut x n).link = { s.link with sdo := sdoBits x n, sdoNext := sdoStream x (n / 8) }
      ∧ (s.shiftOut x n).resetnLow = s.resetnLow ∧ (s.shiftOut x n).table = s.table ∧ (s.shiftOut x n).classes = s.classes
      ∧ (s.shiftOut x n).pursuit = s.pursuit ∧ (s.shiftOut x n).arbiter = s.arbiter ∧ (s.shiftOut x n).scheduler = s.scheduler
      ∧ (s.shiftOut x n).ports = s.ports ∧ (s.shiftOut x n).time = s.time ∧ (s.shiftOut x n).notices = s.notices ∧ (s.shiftOut x n).sweep = s.sweep
      ∧ (s.shiftOut x n).pendant = s.pendant ∧ (s.shiftOut x n).pending = s.pending := by
  refine ⟨?_, ?_, ?_, ?_, ?_, ?_, ?_, ?_, ?_, ?_, ?_, ?_, ?_⟩ <;> rfl

@[simp] theorem clock_fields (bytes : List Byte) (n : Nat) :
    (s.clock bytes n).link =
        { received := bytes.take 34, more := decide (34 < bytes.length), response := s.link.response, ready := s.link.ready
          sdo := sdoBits s.link.response n, sdoNext := sdoStream s.link.response (n / 8) }
      ∧ (s.clock bytes n).resetnLow = s.resetnLow ∧ (s.clock bytes n).table = s.table ∧ (s.clock bytes n).classes = s.classes
      ∧ (s.clock bytes n).pursuit = s.pursuit ∧ (s.clock bytes n).arbiter = s.arbiter ∧ (s.clock bytes n).scheduler = s.scheduler
      ∧ (s.clock bytes n).ports = s.ports ∧ (s.clock bytes n).time = s.time ∧ (s.clock bytes n).notices = s.notices ∧ (s.clock bytes n).sweep = s.sweep
      ∧ (s.clock bytes n).pendant = s.pendant ∧ (s.clock bytes n).pending = s.pending := by
  refine ⟨?_, ?_, ?_, ?_, ?_, ?_, ?_, ?_, ?_, ?_, ?_, ?_, ?_⟩ <;> rfl

@[simp] theorem dropResponse_fields :
    (s.dropResponse).link = { s.link with response := none, ready := false } ∧ s.dropResponse.resetnLow = s.resetnLow ∧ s.dropResponse.table = s.table
      ∧ s.dropResponse.classes = s.classes ∧ s.dropResponse.pursuit = s.pursuit ∧ s.dropResponse.arbiter = s.arbiter
      ∧ s.dropResponse.scheduler = s.scheduler ∧ s.dropResponse.ports = s.ports ∧ s.dropResponse.time = s.time ∧ s.dropResponse.notices = s.notices
      ∧ s.dropResponse.sweep = s.sweep ∧ s.dropResponse.pendant = s.pendant ∧ s.dropResponse.pending = s.pending := by
  refine ⟨?_, ?_, ?_, ?_, ?_, ?_, ?_, ?_, ?_, ?_, ?_, ?_, ?_⟩ <;> rfl

@[simp] theorem respond_fields (r : Response) :
    (s.respond r).link = { s.link with response := some r, ready := true } ∧ (s.respond r).resetnLow = s.resetnLow ∧ (s.respond r).table = s.table
      ∧ (s.respond r).classes = s.classes ∧ (s.respond r).pursuit = s.pursuit ∧ (s.respond r).arbiter = s.arbiter
      ∧ (s.respond r).scheduler = s.scheduler ∧ (s.respond r).ports = s.ports ∧ (s.respond r).time = s.time ∧ (s.respond r).notices = s.notices
      ∧ (s.respond r).sweep = s.sweep ∧ (s.respond r).pendant = s.pendant ∧ (s.respond r).pending = s.pending := by
  refine ⟨?_, ?_, ?_, ?_, ?_, ?_, ?_, ?_, ?_, ?_, ?_, ?_, ?_⟩ <;> rfl

@[simp] theorem setPendant_fields (p : PendantLink) :
    (s.setPendant p).pendant = p ∧ (s.setPendant p).resetnLow = s.resetnLow ∧ (s.setPendant p).table = s.table ∧ (s.setPendant p).classes = s.classes
      ∧ (s.setPendant p).pursuit = s.pursuit ∧ (s.setPendant p).arbiter = s.arbiter ∧ (s.setPendant p).scheduler = s.scheduler
      ∧ (s.setPendant p).ports = s.ports ∧ (s.setPendant p).time = s.time ∧ (s.setPendant p).notices = s.notices ∧ (s.setPendant p).sweep = s.sweep
      ∧ (s.setPendant p).link = s.link ∧ (s.setPendant p).pending = s.pending := by
  refine ⟨?_, ?_, ?_, ?_, ?_, ?_, ?_, ?_, ?_, ?_, ?_, ?_, ?_⟩ <;> rfl

@[simp] theorem setPending_fields (l : List Instr) :
    (s.setPending l).pending = l ∧ (s.setPending l).resetnLow = s.resetnLow ∧ (s.setPending l).table = s.table ∧ (s.setPending l).classes = s.classes
      ∧ (s.setPending l).pursuit = s.pursuit ∧ (s.setPending l).arbiter = s.arbiter ∧ (s.setPending l).scheduler = s.scheduler
      ∧ (s.setPending l).ports = s.ports ∧ (s.setPending l).time = s.time ∧ (s.setPending l).notices = s.notices ∧ (s.setPending l).sweep = s.sweep
      ∧ (s.setPending l).link = s.link ∧ (s.setPending l).pendant = s.pendant := by
  refine ⟨?_, ?_, ?_, ?_, ?_, ?_, ?_, ?_, ?_, ?_, ?_, ?_, ?_⟩ <;> rfl

@[simp] theorem setClass_fields (c : Fin 8) (e : ClassEntry) :
    (s.setClass c e).resetnLow = s.resetnLow ∧ (s.setClass c e).table = s.table ∧ (s.setClass c e).pursuit = s.pursuit
      ∧ (s.setClass c e).arbiter = s.arbiter ∧ (s.setClass c e).scheduler = s.scheduler ∧ (s.setClass c e).ports = s.ports
      ∧ (s.setClass c e).time = s.time ∧ (s.setClass c e).notices = s.notices ∧ (s.setClass c e).sweep = s.sweep ∧ (s.setClass c e).link = s.link
      ∧ (s.setClass c e).pendant = s.pendant ∧ (s.setClass c e).pending = s.pending := by
  refine ⟨?_, ?_, ?_, ?_, ?_, ?_, ?_, ?_, ?_, ?_, ?_, ?_⟩ <;> rfl

@[simp] theorem quiet_fields :
    s.quiet.link = { s.link with sdo := [], sdoNext := 0 } ∧ s.quiet.ports = { s.ports with driveOut := [], rangeOut := [] }
      ∧ s.quiet.resetnLow = s.resetnLow ∧ s.quiet.table = s.table ∧ s.quiet.classes = s.classes ∧ s.quiet.pursuit = s.pursuit
      ∧ s.quiet.arbiter = s.arbiter ∧ s.quiet.scheduler = s.scheduler ∧ s.quiet.time = s.time ∧ s.quiet.notices = s.notices ∧ s.quiet.sweep = s.sweep
      ∧ s.quiet.pendant = s.pendant ∧ s.quiet.pending = s.pending := by
  refine ⟨?_, ?_, ?_, ?_, ?_, ?_, ?_, ?_, ?_, ?_, ?_, ?_, ?_⟩ <;> rfl

end Sys2Proof.Machine
end

