-- ==== Sys2Proof/Laws/Records.lean ====
section
/-! SUPPORT. What the operations on slots and records do: the slot written, the others as before. -/

namespace Sys2Proof.Machine

variable (s : State)

theorem slotAt_setSlot (i j : Fin 48) (v : Slot) : (s.setSlot i v).slotAt j = if i = j then v else s.slotAt j := by
  simp only [State.slotAt, State.setSlot, Vector.getElem_set]
  by_cases h : i = j
  · simp [h]
  · simp [h, Fin.val_inj]

@[simp] theorem slotAt_setSlot_self (i : Fin 48) (v : Slot) : (s.setSlot i v).slotAt i = v := by simp [slotAt_setSlot]

theorem slotAt_setSlot_ne (i j : Fin 48) (v : Slot) (h : i ≠ j) : (s.setSlot i v).slotAt j = s.slotAt j := by simp [slotAt_setSlot, h]

/-- A live record stands in its slot under its generation. -/
theorem live_eq_some {h : Handle} {r : Record} :
    s.live h = some r ↔ (s.slotAt h.slot).generation = h.generation ∧ s.recordAt h.slot = some r := by
  unfold State.live State.recordAt
  split <;> simp_all

/-- The handle of an occupied slot is live. -/
theorem live_handleOf (i : Fin 48) : s.live (s.handleOf i) = s.recordAt i := by
  simp [State.live, State.handleOf, State.recordAt]

/-- The handle checks, passed: the handle names the live record of its slot (R2). -/
theorem lookup_ok {slot gen : Byte} {h : Handle} {r : Record} (ok : s.lookup slot gen = .ok (h, r)) :
    s.live h = some r ∧ h.slot.val = slot.toNat ∧ h.generation = gen := by
  unfold State.lookup at ok
  split at ok
  · simp at ok
  · rename_i i hi
    have hv : i.val = slot.toNat := by
      unfold slotOf at hi
      split at hi
      · simp at hi; exact hi ▸ rfl
      · simp at hi
    split at ok
    · simp at ok
    · rename_i r' hr'
      split at ok
      · rename_i hg
        simp only [Except.ok.injEq, Prod.mk.injEq] at ok
        obtain ⟨rfl, rfl⟩ := ok
        exact ⟨by rw [live_eq_some]; exact ⟨hg, hr'⟩, hv, rfl⟩
      · simp at ok

/-- The handle checks and OWNER, passed: the record is live and STATION-owned (R6). -/
theorem lookupOwned_ok {slot gen : Byte} {h : Handle} {r : Record} (ok : s.lookupOwned slot gen = .ok (h, r)) :
    s.live h = some r ∧ r.owner = .station := by
  unfold State.lookupOwned at ok
  split at ok
  · simp at ok
  · rename_i h' r' hl
    split at ok
    · simp at ok
    · rename_i ho
      simp only [Except.ok.injEq, Prod.mk.injEq] at ok
      obtain ⟨rfl, rfl⟩ := ok
      refine ⟨(lookup_ok s hl).1, ?_⟩
      cases hk : r'.owner <;> simp_all

/-- A change to a record: every slot keeps its generation, the slot named holds the changed record, and the others are as before. -/
theorem slotAt_modifyRecord (h : Handle) (f : Record → Record) (j : Fin 48) :
    (s.modifyRecord h f).slotAt j =
      if h.slot = j ∧ (s.slotAt j).generation = h.generation then { s.slotAt j with record := (s.recordAt j).map f } else s.slotAt j := by
  unfold State.modifyRecord State.live State.recordAt
  by_cases hs : h.slot = j
  · subst hs
    cases hv : s.slotAt h.slot with
    | mk g o => cases o <;> by_cases hg : g = h.generation <;> simp [hv, hg]
  · split <;> simp [slotAt_setSlot, hs]

/-- A change to a live record, read back. -/
theorem live_modifyRecord {h : Handle} {r : Record} (f : Record → Record) (hl : s.live h = some r) :
    (s.modifyRecord h f).live h = some (f r) := by
  rw [live_eq_some] at hl ⊢
  simp [slotAt_modifyRecord, State.recordAt, hl.1] at hl ⊢
  simp [hl]

@[simp] theorem modifyRecord_fields (h : Handle) (f : Record → Record) :
    (s.modifyRecord h f).resetnLow = s.resetnLow ∧ (s.modifyRecord h f).classes = s.classes ∧ (s.modifyRecord h f).pursuit = s.pursuit
      ∧ (s.modifyRecord h f).arbiter = s.arbiter ∧ (s.modifyRecord h f).scheduler = s.scheduler ∧ (s.modifyRecord h f).ports = s.ports
      ∧ (s.modifyRecord h f).time = s.time ∧ (s.modifyRecord h f).notices = s.notices ∧ (s.modifyRecord h f).sweep = s.sweep
      ∧ (s.modifyRecord h f).link = s.link ∧ (s.modifyRecord h f).pendant = s.pendant ∧ (s.modifyRecord h f).pending = s.pending
      ∧ (s.modifyRecord h f).table.stationWindow = s.table.stationWindow
      ∧ (s.modifyRecord h f).table.pendantWindow = s.table.pendantWindow := by
  unfold State.modifyRecord
  split <;> refine ⟨?_, ?_, ?_, ?_, ?_, ?_, ?_, ?_, ?_, ?_, ?_, ?_, ?_, ?_⟩ <;> rfl

end Sys2Proof.Machine
end

