-- ==== Sys2Proof/Laws/Frame.lean ====
section
/-! SUPPORT. One lemma for each operation of the arbiter, the pursuit unit, the matcher, the scheduler and the notice unit: it keeps the setup of the part
and of every record (SameSetup). -/

namespace Sys2Proof.Machine

theorem SameRecords.refl (s : State) : SameRecords s s := fun _ => ⟨rfl, rfl⟩

theorem SameSetup.refl (s : State) : SameSetup s s :=
  ⟨rfl, rfl, rfl, rfl, rfl, rfl, rfl, rfl, rfl, rfl, rfl, rfl, rfl, rfl, rfl, rfl, SameRecords.refl s⟩

theorem SameSetup.trans {s t u : State} (a : SameSetup s t) (b : SameSetup t u) : SameSetup s u where
  pin := b.pin.trans a.pin
  classes := b.classes.trans a.classes
  time := b.time.trans a.time
  sweep := b.sweep.trans a.sweep
  link := b.link.trans a.link
  pendant := b.pendant.trans a.pendant
  pending := b.pending.trans a.pending
  stationWindow := b.stationWindow.trans a.stationWindow
  pendantWindow := b.pendantWindow.trans a.pendantWindow
  priorities := b.priorities.trans a.priorities
  recordMask := b.recordMask.trans a.recordMask
  deviceMask := b.deviceMask.trans a.deviceMask
  master := b.master.trans a.master
  frameRejects := b.frameRejects.trans a.frameRejects
  pendantErrors := b.pendantErrors.trans a.pendantErrors
  expectedFrame := b.expectedFrame.trans a.expectedFrame
  records i := ⟨((b.records i).1).trans (a.records i).1, ((b.records i).2).trans (a.records i).2⟩

/-- A conditional keeps the setup if both branches do. -/
theorem SameSetup.ite {s a b : State} {c : Prop} [Decidable c] (ha : SameSetup s a) (hb : SameSetup s b) :
    SameSetup s (if c then a else b) := by split <;> assumption

variable (s : State)

/-! ### Plain updates -/

theorem setContext_setup (c : Option Context) : SameSetup s (s.setContext c) := SameSetup.refl s |>.trans <| by
  exact ⟨rfl, rfl, rfl, rfl, rfl, rfl, rfl, rfl, rfl, rfl, rfl, rfl, rfl, rfl, rfl, rfl, fun _ => ⟨rfl, rfl⟩⟩
theorem setGrant_setup (g : Option Request) : SameSetup s (s.setGrant g) :=
  ⟨rfl, rfl, rfl, rfl, rfl, rfl, rfl, rfl, rfl, rfl, rfl, rfl, rfl, rfl, rfl, rfl, fun _ => ⟨rfl, rfl⟩⟩
theorem setQueue_setup (q : List QueueEntry) : SameSetup s (s.setQueue q) :=
  ⟨rfl, rfl, rfl, rfl, rfl, rfl, rfl, rfl, rfl, rfl, rfl, rfl, rfl, rfl, rfl, rfl, fun _ => ⟨rfl, rfl⟩⟩
theorem setStack_setup (t : List Request) : SameSetup s (s.setStack t) :=
  ⟨rfl, rfl, rfl, rfl, rfl, rfl, rfl, rfl, rfl, rfl, rfl, rfl, rfl, rfl, rfl, rfl, fun _ => ⟨rfl, rfl⟩⟩
theorem setRunMode_setup (m : RunMode) : SameSetup s (s.setRunMode m) :=
  ⟨rfl, rfl, rfl, rfl, rfl, rfl, rfl, rfl, rfl, rfl, rfl, rfl, rfl, rfl, rfl, rfl, fun _ => ⟨rfl, rfl⟩⟩
theorem setArrivalCounter_setup (n : Nat) : SameSetup s (s.setArrivalCounter n) :=
  ⟨rfl, rfl, rfl, rfl, rfl, rfl, rfl, rfl, rfl, rfl, rfl, rfl, rfl, rfl, rfl, rfl, fun _ => ⟨rfl, rfl⟩⟩
theorem setEntries_setup (l : List RevisitEntry) : SameSetup s (s.setEntries l) :=
  ⟨rfl, rfl, rfl, rfl, rfl, rfl, rfl, rfl, rfl, rfl, rfl, rfl, rfl, rfl, rfl, rfl, fun _ => ⟨rfl, rfl⟩⟩
theorem setFrozen_setup (b : Bool) : SameSetup s (s.setFrozen b) :=
  ⟨rfl, rfl, rfl, rfl, rfl, rfl, rfl, rfl, rfl, rfl, rfl, rfl, rfl, rfl, rfl, rfl, fun _ => ⟨rfl, rfl⟩⟩
theorem setPassWanted_setup (b : Bool) : SameSetup s (s.setPassWanted b) :=
  ⟨rfl, rfl, rfl, rfl, rfl, rfl, rfl, rfl, rfl, rfl, rfl, rfl, rfl, rfl, rfl, rfl, fun _ => ⟨rfl, rfl⟩⟩
theorem sendMove_setup (d : Direction) : SameSetup s (s.sendMove d) :=
  ⟨rfl, rfl, rfl, rfl, rfl, rfl, rfl, rfl, rfl, rfl, rfl, rfl, rfl, rfl, rfl, rfl, fun _ => ⟨rfl, rfl⟩⟩
theorem sendFollow_setup (d : Direction) : SameSetup s (s.sendFollow d) :=
  ⟨rfl, rfl, rfl, rfl, rfl, rfl, rfl, rfl, rfl, rfl, rfl, rfl, rfl, rfl, rfl, rfl, fun _ => ⟨rfl, rfl⟩⟩
theorem sendHalt_setup : SameSetup s s.sendHalt :=
  ⟨rfl, rfl, rfl, rfl, rfl, rfl, rfl, rfl, rfl, rfl, rfl, rfl, rfl, rfl, rfl, rfl, fun _ => ⟨rfl, rfl⟩⟩
theorem sendRange_setup : SameSetup s s.sendRange :=
  ⟨rfl, rfl, rfl, rfl, rfl, rfl, rfl, rfl, rfl, rfl, rfl, rfl, rfl, rfl, rfl, rfl, fun _ => ⟨rfl, rfl⟩⟩
theorem withdrawRange_setup : SameSetup s s.withdrawRange :=
  ⟨rfl, rfl, rfl, rfl, rfl, rfl, rfl, rfl, rfl, rfl, rfl, rfl, rfl, rfl, rfl, rfl, fun _ => ⟨rfl, rfl⟩⟩
theorem judgeLine_setup : SameSetup s s.judgeLine :=
  ⟨rfl, rfl, rfl, rfl, rfl, rfl, rfl, rfl, rfl, rfl, rfl, rfl, rfl, rfl, rfl, rfl, fun _ => ⟨rfl, rfl⟩⟩

/-! ### Records and notices -/

/-- A change to a record that keeps its setup keeps the part's setup. -/
theorem modifyRecord_setup (h : Handle) (f : Record → Record) (hf : ∀ r, (f r).setup = r.setup) : SameSetup s (s.modifyRecord h f) := by
  constructor <;> try simp
  intro i
  rw [State.recordAt, slotAt_modifyRecord]
  split
  · refine ⟨rfl, ?_⟩
    cases s.recordAt i <;> simp [hf]
  · exact ⟨rfl, rfl⟩

theorem SameSetup.modify {s t : State} (a : SameSetup s t) {h : Handle} {f : Record → Record} (hf : ∀ r, (f r).setup = r.setup) :
    SameSetup s (t.modifyRecord h f) := a.trans (modifyRecord_setup t h f hf)

theorem setRecordState_setup (h : Handle) (st : RecState) : SameSetup s (s.setRecordState h st) := modifyRecord_setup s h _ fun _ => rfl

theorem setDeviceNotice_setup (k : DeviceNotice) : SameSetup s (s.setDeviceNotice k) :=
  ⟨rfl, rfl, rfl, rfl, rfl, rfl, rfl, rfl, rfl, rfl, rfl, rfl, rfl, rfl, rfl, rfl, fun _ => ⟨rfl, rfl⟩⟩

theorem setRecordNotice_setup (k : RecordNotice) (h : Handle) : SameSetup s (s.setRecordNotice k h) :=
  (modifyRecord_setup s h (fun r => { r with notices := r.notices ||| recordBit k }) fun _ => rfl).trans (judgeLine_setup _)

theorem countFalseReturn_setup : SameSetup s s.countFalseReturn := by
  unfold State.countFalseReturn
  refine SameSetup.trans (t := if s.notices.falseReturns = 0 then s.setDeviceNotice .falseReturn else s) ?_ ?_
  · exact SameSetup.ite (setDeviceNotice_setup s _) (SameSetup.refl s)
  · exact ⟨rfl, rfl, rfl, rfl, rfl, rfl, rfl, rfl, rfl, rfl, rfl, rfl, rfl, rfl, rfl, rfl, fun _ => ⟨rfl, rfl⟩⟩

theorem countRangeFailure_setup : SameSetup s s.countRangeFailure :=
  ⟨rfl, rfl, rfl, rfl, rfl, rfl, rfl, rfl, rfl, rfl, rfl, rfl, rfl, rfl, rfl, rfl, fun _ => ⟨rfl, rfl⟩⟩

/-! ### The scheduler -/

theorem toDormant_setup (h : Handle) (o : EndOutcome) : SameSetup s (s.toDormant h o) := by
  unfold State.toDormant
  dsimp only
  have m := modifyRecord_setup s h (fun r => { r with state := .dormant, outcome := o }) fun _ => rfl
  split
  · exact m.trans (SameSetup.ite (setPassWanted_setup _ _) (SameSetup.refl _))
  · exact m

theorem scheduleAfter_setup (h : Handle) (r : Record) (t : Time) : SameSetup s (s.scheduleAfter h r t) := setEntries_setup s _

theorem miss_setup (h : Handle) : SameSetup s (s.miss h) := by
  unfold State.miss
  split
  · refine SameSetup.trans (SameSetup.trans ?_ (setRecordNotice_setup _ _ _)) (scheduleAfter_setup _ _ _ _)
    exact modifyRecord_setup s h _ fun _ => rfl
  · exact SameSetup.refl s

theorem revisitReport_setup (h : Handle) (o : EndOutcome) : SameSetup s (s.revisitReport h o) := by
  unfold State.revisitReport
  split
  · exact SameSetup.refl s
  · split
    · split
      · exact miss_setup s h
      · exact miss_setup s h
      · split
        · exact scheduleAfter_setup s _ _ _
        · exact SameSetup.refl s
      · exact setEntries_setup s _
      · exact SameSetup.refl s
    · exact SameSetup.refl s

theorem reportEnd_setup (q : Request) (o : EndOutcome) : SameSetup s (s.reportEnd q o) := by
  unfold State.reportEnd
  split
  · exact SameSetup.ite (revisitReport_setup s _ _) ((revisitReport_setup s _ _).trans (setPassWanted_setup _ _))
  · have hd : SameSetup s (if o = .done ∧ s.driftOut q.handle = true then s.setDeviceNotice .home else s) :=
      SameSetup.ite (setDeviceNotice_setup s _) (SameSetup.refl s)
    exact SameSetup.ite hd (hd.trans (setPassWanted_setup _ _))
  · exact SameSetup.refl s
  · exact SameSetup.refl s

theorem satisfyRevisit_setup (h : Handle) (f : Fix) : SameSetup s (s.satisfyRevisit h f) := by
  unfold State.satisfyRevisit
  split
  · refine SameSetup.trans ?_ (scheduleAfter_setup _ _ _ _)
    exact modifyRecord_setup s h _ fun _ => rfl
  · exact SameSetup.refl s

theorem driftCheck_setup (h : Handle) (f : Fix) : SameSetup s (s.driftCheck h f) := by
  unfold State.driftCheck
  split
  · exact SameSetup.refl s
  · split
    · exact SameSetup.refl s
    · dsimp only
      refine SameSetup.ite (SameSetup.trans ?_ (setRecordNotice_setup _ _ _)) ?_ <;> exact modifyRecord_setup s h _ fun _ => rfl

theorem fixToScheduler_setup (h : Handle) (f : Fix) : SameSetup s (s.fixToScheduler h f) :=
  (satisfyRevisit_setup s h f).trans (driftCheck_setup _ h f)

/-! ### The arbiter -/

theorem enqueue_setup (q : Request) : SameSetup s (s.enqueue q) := by
  unfold State.enqueue State.makeEntry
  refine SameSetup.trans (t := if s.arbiter.arrivalCounter = 65535
    then (s.setQueue (renumber s.arbiter.queue)).setArrivalCounter s.arbiter.queue.length else s) ?_ ?_
  · exact SameSetup.ite ((setQueue_setup s _).trans (setArrivalCounter_setup _ _)) (SameSetup.refl s)
  · exact ((setQueue_setup _ _).trans (setArrivalCounter_setup _ _)).trans (setRecordState_setup _ _ _)

theorem startSlew_setup (q : Request) (d : Direction) : SameSetup s (s.startSlew q d) :=
  (((setGrant_setup s _).trans (setContext_setup _ _)).trans (sendMove_setup _ _)).trans (setRecordState_setup _ _ _)

theorem endPursuit_setup (b : Bool) : SameSetup s (s.endPursuit b) := by
  unfold State.endPursuit
  split
  · exact SameSetup.refl s
  · have e := (setContext_setup s none).trans (withdrawRange_setup _)
    refine SameSetup.ite (e.trans ?_) e
    exact modifyRecord_setup _ _ _ fun _ => rfl

theorem closeRequest_setup (q : Request) (o : EndOutcome) : SameSetup s (s.closeRequest q o) := by
  unfold State.closeRequest
  have c := ((setGrant_setup s none).trans (toDormant_setup _ q.handle o)).trans (reportEnd_setup _ q o)
  exact SameSetup.ite (c.trans (setDeviceNotice_setup _ _)) c

theorem lostAtGrant_setup (q : Request) : SameSetup s (s.lostAtGrant q) :=
  (setRecordNotice_setup s _ _).trans (closeRequest_setup _ _ _)

theorem loseEntry_setup (e : QueueEntry) : SameSetup s (s.loseEntry e) := (setQueue_setup s _).trans (setPassWanted_setup _ _)

theorem pickWinner_setup {q : Request} {t : State} (hp : s.pickWinner = some (q, t)) : SameSetup s t := by
  unfold State.pickWinner at hp
  split at hp
  · cases hp
  · cases hp; exact setStack_setup s _
  · cases hp; exact loseEntry_setup s _
  · split at hp <;> cases hp
    · exact setStack_setup s _
    · exact loseEntry_setup s _

theorem selectLoop_setup (n : Nat) : ∀ (halt : Bool) (s : State), SameSetup s (selectLoop n halt s) := by
  induction n with
  | zero => intro halt s; exact SameSetup.ite (sendHalt_setup s) (SameSetup.refl s)
  | succ n ih =>
    intro halt s
    unfold selectLoop
    split
    · exact SameSetup.ite (sendHalt_setup s) (SameSetup.refl s)
    · rename_i q t hp
      split
      · exact (pickWinner_setup s hp).trans (startSlew_setup _ _ _)
      · exact ((pickWinner_setup s hp).trans (lostAtGrant_setup _ _)).trans (ih _ _)

theorem select_setup (halt : Bool) : SameSetup s (s.select halt) := SameSetup.ite (selectLoop_setup _ _ _) (SameSetup.refl s)

theorem grantTo_setup (q : Request) : SameSetup s (s.grantTo q) := by
  unfold State.grantTo
  split
  · exact startSlew_setup s _ _
  · exact (lostAtGrant_setup s _).trans (select_setup _ _)

theorem pushStack_setup (q : Request) : SameSetup s (s.pushStack q) := by
  unfold State.pushStack
  refine SameSetup.trans (t := match s.arbiter.stack[3]? with
    | some bottom => ((s.setStack (s.arbiter.stack.take 3)).toDormant bottom.handle .dropped).setRecordNotice .drop bottom.handle
    | none => s) ?_ ((setStack_setup _ _).trans (setRecordState_setup _ _ _))
  split
  · exact ((setStack_setup s _).trans (toDormant_setup _ _ _)).trans (setRecordNotice_setup _ _ _)
  · exact SameSetup.refl s

theorem dispose_setup (g : Request) : SameSetup s (s.dispose g) := by
  unfold State.dispose
  have p : SameSetup s (if s.autoResumeOf g.handle = true then (s.pushStack g).setPassWanted true
      else ((s.toDormant g.handle .preempted).setRecordNotice .drop g.handle).setPassWanted true) :=
    SameSetup.ite ((pushStack_setup s g).trans (setPassWanted_setup _ _))
      (((toDormant_setup s _ _).trans (setRecordNotice_setup _ _ _)).trans (setPassWanted_setup _ _))
  split
  · exact enqueue_setup s g
  · exact enqueue_setup s g
  · exact p
  · exact p

theorem preempt_setup (g : Request) (e : QueueEntry) : SameSetup s (s.preempt g e) := by
  unfold State.preempt
  exact ((((setQueue_setup s _).trans (endPursuit_setup _ _)).trans (setGrant_setup _ _)).trans (dispose_setup _ _)).trans (grantTo_setup _ _)

theorem preemptionTest_setup : SameSetup s s.preemptionTest := by
  unfold State.preemptionTest
  split
  · exact SameSetup.ite (preempt_setup s _ _) (SameSetup.refl s)
  · exact SameSetup.refl s

theorem arbitrate_setup : SameSetup s s.arbitrate := SameSetup.ite (select_setup s _) (preemptionTest_setup s)

theorem pursuitEnds_setup (o : EndOutcome) : SameSetup s (s.pursuitEnds o) := by
  unfold State.pursuitEnds
  split
  · exact SameSetup.refl s
  · exact ((endPursuit_setup s _).trans (closeRequest_setup _ _ _)).trans (select_setup _ _)

theorem pursuitLost_setup : SameSetup s s.pursuitLost := by
  unfold State.pursuitLost
  split
  · exact SameSetup.refl s
  · exact (setRecordNotice_setup s _ _).trans (pursuitEnds_setup _ _)

theorem releaseRecord_setup (h : Handle) (r : Record) : SameSetup s (s.releaseRecord h r).1 := by
  unfold State.releaseRecord
  split
  · exact SameSetup.refl s
  · split
    · exact ((setQueue_setup s _).trans (toDormant_setup _ _ _)).trans (reportEnd_setup _ _ _)
    · exact toDormant_setup s _ _
  · split
    · exact ((setStack_setup s _).trans (toDormant_setup _ _ _)).trans (reportEnd_setup _ _ _)
    · exact toDormant_setup s _ _
  · split
    · exact ((((endPursuit_setup s _).trans (setGrant_setup _ _)).trans (toDormant_setup _ _ _)).trans (reportEnd_setup _ _ _)).trans
        (select_setup _ _)
    · exact toDormant_setup s _ _

theorem removePendantEntries_setup (claimed : Handle → Bool) : SameSetup s (s.removePendantEntries claimed) := by
  unfold State.removePendantEntries
  dsimp only
  refine SameSetup.trans (setQueue_setup s (s.arbiter.queue.filter fun e => !(decide (e.request.origin = .pendant) && claimed e.request.handle))) ?_
  generalize (s.arbiter.queue.filter fun e => decide (e.request.origin = .pendant) && claimed e.request.handle) = gone
  generalize s.setQueue _ = t
  induction gone generalizing t with
  | nil => exact SameSetup.refl t
  | cons e rest ih => exact (toDormant_setup t _ _).trans (ih _)

theorem pursueRecord_setup (h : Handle) (r : Record) (o : Origin) (p : Nat) (a : Option Direction) :
    SameSetup s (s.pursueRecord h r o p a).1 := by
  unfold State.pursueRecord
  split
  · split
    · exact SameSetup.refl s
    · split
      · exact SameSetup.refl s
      · exact (enqueue_setup s _).trans (arbitrate_setup _)
  · exact (setQueue_setup s _).trans (preemptionTest_setup _)
  · exact setStack_setup s _
  · exact SameSetup.refl s

theorem takeOffer_setup (h : Handle) : SameSetup s (s.takeOffer h).1 := by
  unfold State.takeOffer
  split
  · exact SameSetup.refl s
  · split
    · exact SameSetup.refl s
    · split
      · exact SameSetup.refl s
      · split
        · exact SameSetup.refl s
        · split
          · exact SameSetup.refl s
          · exact ((setEntries_setup s _).trans (enqueue_setup _ _)).trans (arbitrate_setup _)

theorem offerWalk_setup (l : List (Fin 48)) : ∀ s, SameSetup s (offerWalk l s) := by
  induction l with
  | nil => exact SameSetup.refl
  | cons i rest ih =>
    intro s
    unfold offerWalk
    split
    · exact ih s
    · rename_i h _
      have o := takeOffer_setup s h
      split <;> rename_i heq <;> rw [heq] at o
      · exact o
      · exact o
      · exact (o.trans (miss_setup _ _)).trans (ih _)
      · exact o.trans (ih _)

theorem passLoop_setup (n : Nat) : ∀ s, SameSetup s (passLoop n s) := by
  induction n with
  | zero => exact fun s => setPassWanted_setup s _
  | succ n ih =>
    intro s
    unfold passLoop
    refine SameSetup.ite ?_ (setPassWanted_setup s _)
    have p := (setPassWanted_setup s false).trans (offerWalk_setup (s.setPassWanted false).dueSlots _)
    exact SameSetup.trans (SameSetup.ite (p.trans (setPassWanted_setup _ _)) p) (ih _)

theorem settle_setup (count : Nat) : SameSetup s (s.settle count) := by
  unfold State.settle
  exact SameSetup.trans (SameSetup.ite (setPassWanted_setup s _) (SameSetup.refl s)) (passLoop_setup _ _)

/-! ### The pursuit unit and the matcher -/

theorem deliverVerdict_setup (h : Handle) (v : Verdict) : SameSetup s (s.deliverVerdict h v) := by
  unfold State.deliverVerdict
  split
  · refine SameSetup.trans ?_ (setRecordNotice_setup _ _ _)
    exact modifyRecord_setup s _ _ fun _ => rfl
  · exact countFalseReturn_setup s
  · exact SameSetup.refl s
  · exact SameSetup.refl s

theorem setStage_setup (c : Context) (st : Stage) : SameSetup s (s.setStage c st) :=
  (setContext_setup s _).trans (setRecordState_setup _ _ _)

theorem startSearch_setup (c : Context) (r : Record) (d : Direction) : SameSetup s (s.startSearch c r d) := by
  unfold State.startSearch
  dsimp only
  refine SameSetup.trans ?_ (sendMove_setup _ _)
  exact SameSetup.modify ((withdrawRange_setup s).trans (setStage_setup _ _ _)) fun _ => rfl

theorem capture_setup (c : Context) (f : Frame) : SameSetup s (s.capture c f) := (setStage_setup s _ _).trans (sendFollow_setup _ _)

theorem sendRangeFor_setup (c : Context) : SameSetup s (s.sendRangeFor c) := (setContext_setup s _).trans (sendRange_setup _)

theorem enterRanging_setup (c : Context) : SameSetup s (s.enterRanging c) := (setRecordState_setup s _ _).trans (sendRangeFor_setup _ _)

theorem centringFrame_setup (c : Context) (r : Record) (f : Frame) : SameSetup s (s.centringFrame c r f) := by
  unfold State.centringFrame
  split
  · exact startSearch_setup s _ _ _
  · exact (setContext_setup s _).trans (sendFollow_setup _ _)
  · exact SameSetup.ite ((sendFollow_setup s _).trans (enterRanging_setup _ _)) ((sendFollow_setup s _).trans (setContext_setup _ _))

theorem tableWritesFix_setup (h : Handle) (r : Record) (f : Fix) : SameSetup s (s.tableWritesFix h r f) := by
  unfold State.tableWritesFix
  have w := (modifyRecord_setup s h (fun r' => r'.writeFix f (if r.isFixed = true then none else motionOf r.fix f)) fun _ => rfl).trans
    (setRecordNotice_setup _ .fix h)
  exact SameSetup.ite (w.trans (setRecordNotice_setup _ _ _)) w

theorem deliverFix_setup (h : Handle) (f : Fix) : SameSetup s (s.deliverFix h f) := by
  unfold State.deliverFix
  split
  · exact SameSetup.refl s
  · rename_i r _
    have m : SameSetup s (s.modifyRecord h fun r => { r with fixOverrun := true }) := modifyRecord_setup s h _ fun _ => rfl
    have w : SameSetup s (if r.hold = true ∧ r.fixPending = true then s.modifyRecord h fun r => { r with fixOverrun := true }
        else s.tableWritesFix h r f) := SameSetup.ite m (tableWritesFix_setup s h r f)
    exact SameSetup.ite (w.trans (fixToScheduler_setup _ _ _)) w

theorem lockedReading_setup (c : Context) (r : Record) (distance : Nat) : SameSetup s (s.lockedReading c r distance) := by
  unfold State.lockedReading
  have d := (setContext_setup s (some { c with rangeInFlight := false, pendingMark := none })).trans
    (deliverFix_setup _ c.target (s.composeFix c r distance))
  dsimp only
  split
  · exact d.trans (pursuitEnds_setup _ _)
  · exact d.trans (pursuitEnds_setup _ _)
  · exact SameSetup.ite (d.trans (sendRangeFor_setup _ _)) (d.trans (setContext_setup _ _))
  · exact SameSetup.ite (d.trans (sendRangeFor_setup _ _)) (d.trans (setContext_setup _ _))

theorem enterLocked_setup (c : Context) (r : Record) (distance : Nat) : SameSetup s (s.enterLocked c r distance) :=
  ((setRecordState_setup s _ _).trans (setRecordNotice_setup _ _ _)).trans (lockedReading_setup _ _ _ _)

theorem rangingFails_setup (c : Context) (r : Record) : SameSetup s (s.rangingFails c r) :=
  (countRangeFailure_setup s).trans (startSearch_setup _ _ _ _)

theorem pursuitReading_setup (distance : Nat) : SameSetup s (s.pursuitReading distance) := by
  unfold State.pursuitReading
  split
  · exact SameSetup.refl s
  · split
    · exact SameSetup.refl s
    · split
      · unfold State.rangingReading
        exact SameSetup.ite (sendRangeFor_setup s _)
          (SameSetup.ite (enterLocked_setup s _ _ _) (SameSetup.ite (sendRangeFor_setup s _) (rangingFails_setup s _ _)))
      · exact lockedReading_setup s _ _ _
      · exact SameSetup.refl s

theorem pursuitFail_setup : SameSetup s s.pursuitFail := by
  unfold State.pursuitFail
  split
  · exact SameSetup.refl s
  · split
    · exact SameSetup.refl s
    · split
      · exact rangingFails_setup s _ _
      · exact (countRangeFailure_setup s).trans (sendRangeFor_setup _ _)
      · exact SameSetup.refl s

theorem huntingFrame_setup (c : Context) (r : Record) (inside : Bool) (f : Frame) : SameSetup s (s.huntingFrame c r inside f) := by
  unfold State.huntingFrame
  split
  · exact capture_setup s _ _
  · exact deliverVerdict_setup s _ _

theorem coastingFrame_setup (c : Context) (r : Record) (f : Frame) : SameSetup s (s.coastingFrame c r f) := by
  unfold State.coastingFrame
  simp only
  split
  · exact capture_setup s _ _
  · exact (deliverVerdict_setup s _ _).trans (sendFollow_setup _ _)

theorem breakLock_setup (c : Context) (r : Record) : SameSetup s (s.breakLock c r) := by
  unfold State.breakLock
  dsimp only
  refine SameSetup.trans ?_ (setRecordNotice_setup _ _ _)
  exact SameSetup.modify ((withdrawRange_setup s).trans (setStage_setup _ _ _)) fun _ => rfl

theorem lockedFrame_setup (c : Context) (r : Record) (f : Frame) : SameSetup s (s.lockedFrame c r f) := by
  unfold State.lockedFrame
  refine SameSetup.ite ?_ (breakLock_setup s _ _)
  exact (SameSetup.trans (SameSetup.ite (setRecordNotice_setup s _ _) (SameSetup.refl s)) (setContext_setup _ _)).trans (sendFollow_setup _ _)

theorem pursuitFrame_setup (f : Frame) : SameSetup s (s.pursuitFrame f) := by
  unfold State.pursuitFrame
  split
  · exact SameSetup.refl s
  · split
    · exact SameSetup.refl s
    · split
      · exact huntingFrame_setup s _ _ _ _
      · exact huntingFrame_setup s _ _ _ _
      · exact coastingFrame_setup s _ _ _
      · exact centringFrame_setup s _ _ _
      · unfold State.rangingFrame
        exact SameSetup.ite ((setContext_setup s _).trans (sendFollow_setup _ _)) (startSearch_setup s _ _ _)
      · exact lockedFrame_setup s _ _ _

theorem waypointReached_setup (c : Context) (search : Search) : SameSetup s (s.waypointReached c search) := by
  unfold State.waypointReached
  split
  · exact (setContext_setup s _).trans (sendMove_setup _ _)
  · exact (setContext_setup s _).trans (pursuitLost_setup _)

theorem pursuitArrived_setup : SameSetup s s.pursuitArrived := by
  unfold State.pursuitArrived
  split
  · exact SameSetup.refl s
  · refine SameSetup.ite ?_ (SameSetup.refl s)
    split
    · exact startSearch_setup s _ _ _
    · exact waypointReached_setup s _ _
    · exact SameSetup.refl s

theorem takeCoastExpiry_setup : SameSetup s s.takeCoastExpiry := by
  unfold State.takeCoastExpiry
  split
  · exact SameSetup.refl s
  · split
    · exact startSearch_setup s _ _ _
    · exact SameSetup.refl s

theorem takeFixWaitExpiry_setup : SameSetup s s.takeFixWaitExpiry := by
  unfold State.takeFixWaitExpiry
  split
  · exact SameSetup.refl s
  · exact sendRangeFor_setup s _

theorem takeDueExpiry_setup : SameSetup s s.takeDueExpiry := by
  unfold State.takeDueExpiry
  split
  · exact (setEntries_setup s _).trans (setPassWanted_setup _ _)
  · exact SameSetup.refl s

end Sys2Proof.Machine
end

