-- ==== Sys2Proof/Laws/Events.lean ====
section
/-! SUPPORT. How an event comes out: the wrappers of Events.lean and PendantRequests.lean, read back. -/

namespace Sys2Proof.Machine

variable (s : State)

/-! ### What SDO shifts out (R176) -/

@[simp] theorem sdoStream_none (n : Nat) : sdoStream none n = 0#8 := rfl

@[simp] theorem sdoStream_some (r : Response) (n : Nat) : sdoStream (some r) n = r.bytes.getD n 0#8 := rfl

@[simp] theorem sdoBits_length (x : Option Response) (clocks : Nat) : (sdoBits x clocks).length = clocks := by simp [sdoBits]

@[simp] theorem sdoBits_zero (x : Option Response) : sdoBits x 0 = [] := rfl

/-- Without a response every bit is 0. -/
@[simp] theorem sdoBits_none (clocks : Nat) : sdoBits none clocks = List.replicate clocks false := by
  refine List.ext_getElem (by simp) fun k h1 h2 => ?_
  simp [sdoBits]

/-- The bit at clock 8n + b is bit b, from the most significant, of byte n of the stream. -/
theorem sdoBits_bit (x : Option Response) {clocks n b : Nat} (hb : b < 8) (h : 8 * n + b < clocks) :
    (sdoBits x clocks)[8 * n + b]? = some ((sdoStream x n).getMsbD b) := by
  have h1 : (8 * n + b) / 8 = n := by omega
  have h2 : (8 * n + b) % 8 = b := by omega
  simp [sdoBits, List.getElem?_map, List.getElem?_range h, h1, h2]

/-! ### How an event comes out -/

/-- While RESETN is low an event has no effect, but that a transaction's clocks shift out 0x00. -/
theorem whenUp_low (n : Nat) (f : State → State) (h : s.resetnLow = true) : s.whenUp n f = .next (s.quiet.shiftOut none n) := by
  simp [State.whenUp, h]

/-- With RESETN high an event has its effect on the quiet state. -/
theorem whenUp_high (n : Nat) (f : State → State) (h : s.resetnLow = false) : s.whenUp n f = .next (f s.quiet) := by simp [State.whenUp, h]

/-- An own event with RESETN high: its effect, then the scheduler's passes. -/
theorem ownEvent_high (f : State → State) (h : s.resetnLow = false) :
    s.ownEvent f = .next ((f s.quiet).settle s.arbiter.queue.length) := by
  simp [State.ownEvent, whenUp_high _ _ _ h]

/-- The state a command is taken in: the transaction clocked, the pending response discarded. -/
def State.atRise (s : State) (i : Instr) : State := (s.quiet.transact i).dropResponse

/-- A station command with RESETN high: what the owning block makes of it, with its response pending. -/
theorem station_high (i : Instr) (take : State → State × Response) (h : s.resetnLow = false) :
    s.station i take = .next ((take (s.atRise i)).1.respond (take (s.atRise i)).2) := by
  simp [State.station, whenUp_high _ _ _ h, State.atRise]

@[simp] theorem atRise_fields (i : Instr) :
    (s.atRise i).resetnLow = s.resetnLow ∧ (s.atRise i).table = s.table ∧ (s.atRise i).classes = s.classes
      ∧ (s.atRise i).pursuit = s.pursuit ∧ (s.atRise i).arbiter = s.arbiter ∧ (s.atRise i).scheduler = s.scheduler
      ∧ (s.atRise i).time = s.time ∧ (s.atRise i).notices = s.notices ∧ (s.atRise i).sweep = s.sweep
      ∧ (s.atRise i).pendant = s.pendant ∧ (s.atRise i).pending = s.pending
      ∧ (s.atRise i).ports = { s.ports with driveOut := [], rangeOut := [] } := by
  refine ⟨?_, ?_, ?_, ?_, ?_, ?_, ?_, ?_, ?_, ?_, ?_, ?_⟩ <;> rfl

/-- A command that changes nothing but the link leaves answeredBy. -/
theorem respond_atRise (i : Instr) (r : Response) : (s.atRise i).respond r = answeredBy s i r s := rfl

@[simp] theorem slotAt_atRise (i : Instr) (j : Fin 48) : (s.atRise i).slotAt j = s.slotAt j := rfl

@[simp] theorem recordAt_atRise (i : Instr) (j : Fin 48) : (s.atRise i).recordAt j = s.recordAt j := rfl

@[simp] theorem lookup_atRise (i : Instr) (slot gen : Byte) : (s.atRise i).lookup slot gen = s.lookup slot gen := rfl

@[simp] theorem lookupOwned_atRise (i : Instr) (slot gen : Byte) : (s.atRise i).lookupOwned slot gen = s.lookupOwned slot gen := rfl

/-! ### What the states of the statements hold -/

@[simp] theorem recordAt_answeredBy (i : Instr) (r : Response) (t : State) (j : Fin 48) : (answeredBy s i r t).recordAt j = t.recordAt j := rfl

@[simp] theorem answersPlainly_answeredBy (i : Instr) (a : Answer) (t : State) : answersPlainly (answeredBy s i (noPayload a) t) a := ⟨rfl, rfl⟩

@[simp] theorem recordAt_sentNothing (j : Fin 48) : (sentNothing s).recordAt j = s.recordAt j := rfl

@[simp] theorem recordAt_sentDrive (q : DriveRequest) (j : Fin 48) : (sentDrive s q).recordAt j = s.recordAt j := rfl

@[simp] theorem recordAt_movedTo (d : Direction) (j : Fin 48) : (movedTo s d).recordAt j = s.recordAt j := rfl

@[simp] theorem recordAt_rangeAsked (j : Fin 48) : (rangeAsked s).recordAt j = s.recordAt j := rfl

@[simp] theorem beamFreed_fields :
    (beamFreed s).table = s.table ∧ (beamFreed s).pursuit = none ∧ (beamFreed s).arbiter = { s.arbiter with grant := none }
      ∧ (beamFreed s).ports.driveOut = [.halt] ∧ (beamFreed s).scheduler = s.scheduler ∧ (beamFreed s).notices = s.notices :=
  ⟨rfl, rfl, rfl, rfl, rfl, rfl⟩

/-- A beam passed to a request: the grant, what still waits, and the one MOVE. -/
@[simp] theorem beamPassed_fields (q : Request) (r : Record) (d : Direction) (queue : List QueueEntry) (stack : List Request) :
    (beamPassed s q r d queue stack).arbiter = { s.arbiter with grant := some q, queue := queue, stack := stack }
      ∧ (beamPassed s q r d queue stack).table = (s.withRecord q.handle { r with state := .active .slewing }).table
      ∧ (beamPassed s q r d queue stack).ports.driveOut = [.move d s.ports.nextMoveTag]
      ∧ (beamPassed s q r d queue stack).ports.outstanding = none ∧ (beamPassed s q r d queue stack).scheduler = s.scheduler :=
  ⟨rfl, rfl, rfl, rfl, rfl⟩

end Sys2Proof.Machine
end

