-- ==== Sys2Proof/Laws/Geometry.lean ====
section
/-! SUPPORT. The window work of Geometry.lean read back in the words of the rules: the short way round, positions, windows, the overlap test and the sources of
prediction (R32 to R38). -/

namespace Sys2Proof.Machine

/-! ### The short way round (R32) -/

/-- A normalised azimuth is the azimuth less whole turns, at most half a turn off 0. -/
theorem normAzimuth_shortWay (x : Int) : ShortWay x (normAzimuth x) := by
  refine ⟨?_, -((x + 3141592) / 6283185), ?_⟩
  · unfold normAzimuth
    have := Int.emod_nonneg (x + 3141592) (b := 6283185) (by decide)
    have := Int.emod_lt_of_pos (x + 3141592) (b := 6283185) (by decide)
    omega
  · unfold normAzimuth
    have := Int.emod_add_mul_ediv (x + 3141592) 6283185
    omega

/-- There is one short way round. -/
theorem ShortWay.unique {x n m : Int} (hn : ShortWay x n) (hm : ShortWay x m) : n = m := by
  obtain ⟨h1, k, h2⟩ := hn
  obtain ⟨h3, l, h4⟩ := hm
  omega

/-- The test of both differences is the distance of R33 and R35. -/
theorem withinSquare_iff (a b : Direction) (n : Nat) : withinSquare a b n = true ↔ Within a b n := by
  have e : withinSquare a b n = true ↔ (normAzimuth (a.azimuth - b.azimuth)).natAbs ≤ n ∧ (a.elevation - b.elevation).natAbs ≤ n := by
    rw [withinSquare, Bool.and_eq_true, decide_eq_true_iff, decide_eq_true_iff]; rfl
  rw [e]
  constructor
  · rintro ⟨h1, h2⟩
    exact ⟨⟨_, normAzimuth_shortWay _, h1⟩, h2⟩
  · rintro ⟨⟨m, hm, h1⟩, h2⟩
    rw [(normAzimuth_shortWay _).unique hm]
    exact ⟨h1, h2⟩

/-! ### Ranges of values (1.3, R8, R27, R84, R105) -/

/-- A direction in its limits. -/
theorem inLimits_iff (d : Direction) : d.inLimits = true ↔ d.Fits := by simp [Direction.inLimits, Direction.Fits, and_assoc]

/-- The Parameters group in its ranges. -/
theorem parametersInRange_iff (p : Parameters) : p.inRange = true ↔ p.Fits := by simp [Parameters.inRange, Parameters.Fits, and_assoc]

/-- A class entry in its ranges. -/
theorem classEntryInRange_iff (c : ClassEntry) : c.inRange = true ↔ c.Fits := by simp [ClassEntry.inRange, ClassEntry.Fits, and_assoc]

/-- A revisit period in its range. -/
theorem periodInRange_iff (p : Nat) : periodInRange p = true ↔ PeriodFits p := by simp [periodInRange, PeriodFits]

/-- An allocation window in its range. -/
theorem windowInRange_iff (w : AllocWindow) : w.inRange = true ↔ w.Fits := by simp [AllocWindow.inRange, AllocWindow.Fits, and_assoc]

/-! ### Positions and windows (R33, R34) -/

/-- The position of a record is where it stands. -/
theorem position_eq_some (r : Record) (d : Direction) : r.position = some d ↔ r.StandsAt d := by
  unfold Record.position Record.isFixed Record.StandsAt
  by_cases hk : r.kind = .roving
  · simp [hk]
  · cases r.reference <;> cases r.fix <;> simp [hk, eq_comm]

/-- A slot has the window that its record gives it. -/
theorem zone_eq_some (s : State) (i : Fin 48) (d : Direction) (w : Nat) : s.zone i = some (d, w) ↔ HasWindow s i d w := by
  unfold State.zone HasWindow
  cases hr : s.recordAt i with
  | none => simp
  | some r => simp [← position_eq_some, State.effectiveWindow, State.classOf, eq_comm]

/-- A slot's record is fixed and has a reference. -/
theorem referenced_iff (s : State) (i : Fin 48) : s.referenced i = true ↔ HasReference s i := by
  unfold State.referenced HasReference Record.isFixed
  cases s.recordAt i <;> simp [Option.isSome_iff_ne_none]

/-- A direction lies in a slot's window. -/
theorem insideZone_iff (s : State) (d : Direction) (i : Fin 48) : s.insideZone d i = true ↔ InWindowOf s d i := by
  unfold State.insideZone InWindowOf
  simp only [← zone_eq_some, insideWindow, ← withinSquare_iff]
  cases s.zone i with
  | none => simp
  | some z => obtain ⟨e, w⟩ := z; simp

/-- The window on a direction, as the matcher tests it in SLEWING and COASTING (R41). -/
theorem insideOn_iff (s : State) (r : Record) (centre : Direction) (f : Frame) :
    s.insideOn r centre f = true ↔ Within (returnDirection f) centre (s.effectiveWindow r) := withinSquare_iff _ _ _

/-- The window on the beam, as the matcher tests it in SEARCHING (R41). -/
theorem insideOnBeam_iff (s : State) (r : Record) (f : Frame) :
    s.insideOnBeam r f = true ↔ f.spotX.natAbs ≤ s.effectiveWindow r ∧ f.spotY.natAbs ≤ s.effectiveWindow r := by
  simp [State.insideOnBeam]

/-! ### The overlap test (R35, R36) -/

/-- Two slots' windows overlap. -/
theorem pairOverlaps_iff (s : State) (i j : Fin 48) : s.pairOverlaps i j = true ↔ WindowsOverlap s i j := by
  unfold State.pairOverlaps WindowsOverlap
  simp only [← zone_eq_some, ← withinSquare_iff]
  cases s.zone i with
  | none => simp
  | some a =>
    cases s.zone j with
    | none => simp
    | some b => obtain ⟨d, w⟩ := a; obtain ⟨e, v⟩ := b; simp

/-- Of a pair that fails the window test. -/
theorem pairFails_iff (before after : State) (i j : Fin 48) :
    pairFails before after i j = true ↔
      WindowsOverlap after i j ∧ (¬WindowsOverlap before i j ∨ HasReference after i ∧ HasReference after j) := by
  simp only [pairFails, Bool.and_eq_true, Bool.or_eq_true, Bool.not_eq_true', ← pairOverlaps_iff, ← referenced_iff, Bool.not_eq_true]

/-- The window test fails where some pair does. -/
theorem windowTestFails_iff (before after : State) (i : Fin 48) :
    windowTestFails before after i = true ↔ ∃ k, k ≠ i ∧ pairFails before after i k = true := by
  simp [windowTestFails, allSlots]

/-- A slot's window overlaps another's. -/
theorem overlapsAny_iff (s : State) (i : Fin 48) : s.overlapsAny i = true ↔ ∃ j, j ≠ i ∧ WindowsOverlap s i j := by
  simp [State.overlapsAny, allSlots, ← pairOverlaps_iff]

/-- The near slot of a direction: the lowest slot other than the target's whose window holds it (R45). -/
theorem nearSlotOf_isSome (s : State) (target : Fin 48) (d : Direction) :
    (s.nearSlotOf target d).isSome = true ↔ ∃ j, j ≠ target ∧ InWindowOf s d j := by
  simp [State.nearSlotOf, allSlots, ← insideZone_iff]

/-! ### Prediction (R37, R38) -/

/-- A fixed record that stands somewhere is predicted there. -/
theorem prediction_of_standsAt {r : Record} {d : Direction} (h : r.StandsAt d) (aim : Option Direction) (t : Time) :
    r.prediction aim t = some d := by
  have hp := (position_eq_some r d).mpr h
  have hf : r.isFixed = true := by simpa [Record.isFixed] using h.1
  simp [Record.prediction, Record.ownPrediction, hf, hp]

/-- A fixed record that stands nowhere is predicted at its aim. -/
theorem prediction_of_nowhere {r : Record} (hk : r.kind ≠ .roving) (h : ∀ d, ¬r.StandsAt d) (aim : Option Direction) (t : Time) :
    r.prediction aim t = aim := by
  have hp : r.position = none := by
    cases hq : r.position with
    | none => rfl
    | some d => exact absurd ((position_eq_some r d).mp hq) (h d)
  have hf : r.isFixed = true := by simpa [Record.isFixed] using hk
  simp [Record.prediction, Record.ownPrediction, hf, hp]

/-- A ROVING record's prediction, by its fix and its motion estimate. -/
theorem prediction_of_roving {r : Record} (hk : r.kind = .roving) (aim : Option Direction) (t : Time) :
    r.prediction aim t =
      match r.fix, r.motion with
      | some f, some m => some (carryForward f m r.params.coastTime t)
      | some f, none => some f.direction
      | none, _ => aim := by
  have hf : r.isFixed = false := by simp [Record.isFixed, hk]
  cases h1 : r.fix <;> cases h2 : r.motion <;> simp [Record.prediction, Record.ownPrediction, hf, h1, h2]

end Sys2Proof.Machine
end

