-- ==== Sys2Proof/Laws/Lists.lean ====
section
/-! SUPPORT. The selection among queue entries, the order of the revisit list and the walk of a SCAN. -/

namespace Sys2Proof.Machine

/-- The entry that selection takes first is an entry of the queue. -/
theorem bestEntry_mem {q : List QueueEntry} {e : QueueEntry} (h : bestEntry q = some e) : e ∈ q := by
  induction q generalizing e with
  | nil => simp [bestEntry] at h
  | cons x rest ih =>
    unfold bestEntry at h
    split at h
    · simp at h; simp [h]
    · rename_i b hb
      split at h <;> simp at h <;> subst h
      · exact List.mem_cons_of_mem _ (ih hb)
      · exact List.mem_cons_self

/-- Selection finds an entry exactly when the queue holds one. -/
theorem bestEntry_isSome (q : List QueueEntry) : (bestEntry q).isSome = !q.isEmpty := by
  induction q with
  | nil => rfl
  | cons x rest ih =>
    unfold bestEntry
    split
    · rfl
    · split <;> rfl

/-- No entry of the queue has a higher priority than the one selection takes first, nor a lower arrival number at its priority (R88). -/
theorem bestEntry_first {q : List QueueEntry} {e : QueueEntry} (h : bestEntry q = some e) :
    ∀ x ∈ q, x.request.priority < e.request.priority ∨ x.request.priority = e.request.priority ∧ e.arrival ≤ x.arrival := by
  induction q generalizing e with
  | nil => simp
  | cons x rest ih =>
    unfold bestEntry at h
    split at h
    · rename_i hn
      have he : rest = [] := by
        have := bestEntry_isSome rest
        rw [hn] at this
        cases rest <;> simp_all
      simp at h; subst h; subst he; simp
    · rename_i b hb
      have hr := ih hb
      by_cases hc : b.beats x = true
      · simp [hc] at h; subst h
        intro y hy
        rcases List.mem_cons.mp hy with rfl | hy
        · simp only [QueueEntry.beats, Bool.or_eq_true, Bool.and_eq_true, decide_eq_true_eq] at hc
          omega
        · exact hr y hy
      · simp [hc] at h; subst h
        intro y hy
        rcases List.mem_cons.mp hy with rfl | hy
        · exact Or.inr ⟨rfl, le_refl _⟩
        · have := hr y hy
          simp only [QueueEntry.beats, Bool.or_eq_true, Bool.and_eq_true, decide_eq_true_eq, not_or, not_and] at hc
          omega

/-- No entry of the queue has a higher priority than the one selection takes first (R88). -/
theorem bestEntry_priority {q : List QueueEntry} {e : QueueEntry} (h : bestEntry q = some e) :
    ∀ x ∈ q, x.request.priority ≤ e.request.priority := fun x hx => by
  have := bestEntry_first h x hx
  omega

/-- Of distinct arrival numbers, the entry of the highest priority and, among equals, of the lowest number is the one selection takes first (R88, R89). -/
theorem bestEntry_of_best {q : List QueueEntry} {e : QueueEntry} (distinct : (q.map (·.arrival)).Nodup) (he : e ∈ q)
    (best : ∀ x ∈ q, x.request.priority < e.request.priority ∨ x.request.priority = e.request.priority ∧ e.arrival ≤ x.arrival) :
    bestEntry q = some e := by
  induction q with
  | nil => simp at he
  | cons y rest ih =>
    simp only [List.map_cons, List.nodup_cons, List.mem_map, not_exists, not_and] at distinct
    obtain ⟨fresh, distinct⟩ := distinct
    unfold bestEntry
    rcases List.mem_cons.mp he with rfl | hr
    · cases hb : bestEntry rest with
      | none => rfl
      | some b =>
        have hm := bestEntry_mem hb
        have h1 := best b (List.mem_cons_of_mem _ hm)
        have h2 := fresh b hm
        have : b.beats e = false := by
          simp only [QueueEntry.beats, Bool.or_eq_false_iff, Bool.and_eq_false_iff, decide_eq_false_iff_not]
          omega
        simp [this]
    · have hb := ih distinct hr fun x hx => best x (List.mem_cons_of_mem _ hx)
      rw [hb]
      have h1 := best y List.mem_cons_self
      have h2 := fresh e hr
      have : e.beats y = true := by
        simp only [QueueEntry.beats, Bool.or_eq_true, Bool.and_eq_true, decide_eq_true_eq]
        omega
      simp [this]

/-- Selection takes what R88 says, out of where it stands; taking a queue entry also tells the scheduler (R79). -/
theorem pickWinner_of_selects {s : State} {q : Request} {queue : List QueueEntry} {stack : List Request} (hs : Selects s.arbiter q queue stack)
    (distinct : QueueDistinct s.arbiter.queue) :
    s.pickWinner = some (q, s.setStack stack)
      ∨ s.pickWinner = some (q, (s.setQueue queue).setPassWanted true) ∧ stack = s.arbiter.stack
        ∧ queue = withoutQueued q.handle.slot s.arbiter.queue := by
  rcases hs with ⟨hstack, -, hp⟩ | ⟨hstack, hqueue, htop, e, he, rfl, hbest⟩
  · left
    unfold State.pickWinner
    rw [hstack]
    cases hb : bestEntry s.arbiter.queue with
    | none => rfl
    | some b => simp [hp b (bestEntry_mem hb)]
  · right
    have hb := bestEntry_of_best distinct.1 he hbest
    refine ⟨?_, hstack, hqueue⟩
    unfold State.pickWinner
    rw [hb]
    cases hst : s.arbiter.stack with
    | nil => simp [State.loseEntry, withoutQueued, hqueue]
    | cons t rest =>
      have := htop t (by simp [hst])
      have hn : ¬e.request.priority ≤ t.priority := by omega
      simp [hn, State.loseEntry, withoutQueued, hqueue]

/-- The queue in selection order is the queue, and in the order selection takes its entries (R101). -/
theorem selectionOrder_sorted (n : Nat) : ∀ q : List QueueEntry, q.length = n → QueueDistinct q →
    (selectionOrder n q).Perm q ∧ (selectionOrder n q).Pairwise fun a b =>
      b.request.priority < a.request.priority ∨ a.request.priority = b.request.priority ∧ a.arrival < b.arrival := by
  induction n with
  | zero => intro q hq _; simp [List.length_eq_zero_iff.mp hq, selectionOrder]
  | succ n ih =>
    intro q hq distinct
    cases hb : bestEntry q with
    | none =>
      have := bestEntry_isSome q
      rw [hb] at this
      cases q <;> simp_all
    | some e =>
      have hm := bestEntry_mem hb
      obtain ⟨l, r, rfl⟩ := List.append_of_mem hm
      obtain ⟨d1, d2⟩ := distinct
      simp only [List.map_append, List.map_cons, List.nodup_append, List.nodup_cons, List.mem_map, List.mem_cons] at d1 d2
      have slots : ∀ x ∈ l ++ r, x.request.handle.slot ≠ e.request.handle.slot := by
        intro x hx
        rcases List.mem_append.mp hx with h | h
        · exact d2.2.2 _ ⟨x, h, rfl⟩ _ (Or.inl rfl)
        · exact fun hc => d2.2.1.1 ⟨x, h, hc⟩
      have arrivals : ∀ x ∈ l ++ r, x.arrival ≠ e.arrival := by
        intro x hx
        rcases List.mem_append.mp hx with h | h
        · exact d1.2.2 _ ⟨x, h, rfl⟩ _ (Or.inl rfl)
        · exact fun hc => d1.2.1.1 ⟨x, h, hc⟩
      have rest : withoutQueued e.request.handle.slot (l ++ e :: r) = l ++ r := by
        simp only [withoutQueued, List.filter_append, List.filter_cons, ne_eq, not_true, decide_false, Bool.false_eq_true, if_false]
        rw [List.filter_eq_self.mpr fun x hx => by simpa using slots x (List.mem_append_left _ hx),
          List.filter_eq_self.mpr fun x hx => by simpa using slots x (List.mem_append_right _ hx)]
      have distinct' : QueueDistinct (l ++ r) := by
        refine ⟨?_, ?_⟩
        · simp only [List.map_append, List.nodup_append, List.mem_map]
          exact ⟨d1.1, d1.2.1.2, fun a ha b hb => d1.2.2 a ha b (Or.inr hb)⟩
        · simp only [List.map_append, List.nodup_append, List.mem_map]
          exact ⟨d2.1, d2.2.1.2, fun a ha b hb => d2.2.2 a ha b (Or.inr hb)⟩
      obtain ⟨hp, hs⟩ := ih (l ++ r) (by simp at hq ⊢; omega) distinct'
      simp only [selectionOrder, hb, rest]
      refine ⟨(hp.cons e).trans List.perm_middle.symm, List.pairwise_cons.mpr ⟨fun x hx => ?_, hs⟩⟩
      have hx' := hp.mem_iff.mp hx
      have h1 := bestEntry_first hb x (by
        rcases List.mem_append.mp hx' with h | h
        · exact List.mem_append_left _ h
        · exact List.mem_append_right _ (List.mem_cons_of_mem _ h))
      have h2 := arrivals x hx'
      omega

/-! ### The revisit list (R103) -/

/-- The order of the list. -/
theorem before_iff (a b : RevisitEntry) : a.before b = true ↔ ListBefore a b := by
  simp [RevisitEntry.before, ListBefore]

/-- The order is total between entries of different slots. -/
theorem ListBefore.of_not {a b : RevisitEntry} (h : ¬ListBefore a b) (hs : b.handle.slot ≠ a.handle.slot) : ListBefore b a := by
  unfold ListBefore at *
  by_cases hd : a.due = b.due
  · refine Or.inr ⟨hd.symm, ?_⟩
    have : ¬a.handle.slot < b.handle.slot := fun hl => h (Or.inr ⟨hd, hl⟩)
    omega
  · have : a.due.toNat ≠ b.due.toNat := fun he => hd (BitVec.eq_of_toNat_eq he)
    left; omega

/-- The order of the list is transitive. -/
theorem ListBefore.trans {a b c : RevisitEntry} (h1 : ListBefore a b) (h2 : ListBefore b c) : ListBefore a c := by
  unfold ListBefore at *
  rcases h1 with h1 | ⟨e1, h1⟩ <;> rcases h2 with h2 | ⟨e2, h2⟩
  · left; omega
  · left; rw [← e2]; exact h1
  · left; rw [e1]; exact h2
  · right; exact ⟨e1.trans e2, h1.trans h2⟩

/-- An entry placed in the list adds itself and nothing else. -/
theorem mem_insertEntry {e x : RevisitEntry} {l : List RevisitEntry} : x ∈ insertEntry e l ↔ x = e ∨ x ∈ l := by
  induction l with
  | nil => simp [insertEntry]
  | cons y ys ih =>
    unfold insertEntry
    split
    · simp
    · simp [ih]
      tauto

@[simp] theorem length_insertEntry (e : RevisitEntry) (l : List RevisitEntry) : (insertEntry e l).length = l.length + 1 := by
  induction l with
  | nil => rfl
  | cons y ys ih => unfold insertEntry; split <;> simp [ih]

/-- Where an entry is placed: after every entry it is not before, and just before the first that it is before. -/
theorem insertEntry_splits (e : RevisitEntry) (l : List RevisitEntry) :
    ∃ before later, insertEntry e l = before ++ e :: later ∧ before ++ later = l ∧ (∀ y ∈ before, ¬ListBefore e y)
      ∧ ∀ y, later.head? = some y → ListBefore e y := by
  induction l with
  | nil => exact ⟨[], [], rfl, rfl, by simp, by simp⟩
  | cons x xs ih =>
    unfold insertEntry
    by_cases h : e.before x = true
    · exact ⟨[], x :: xs, by simp [h], rfl, by simp, fun y hy => by simp at hy; exact hy ▸ (before_iff e x).mp h⟩
    · obtain ⟨before, later, h1, h2, h3, h4⟩ := ih
      refine ⟨x :: before, later, by simp [h, h1], by simp [h2], ?_, h4⟩
      intro y hy
      rcases List.mem_cons.mp hy with rfl | hy
      · exact fun hc => h ((before_iff e y).mpr hc)
      · exact h3 y hy

/-- An entry placed in a list in order leaves it in order. -/
theorem insertEntry_sorted {e : RevisitEntry} {l : List RevisitEntry} (hs : ∀ y ∈ l, y.handle.slot ≠ e.handle.slot) (h : l.Pairwise ListBefore) :
    (insertEntry e l).Pairwise ListBefore := by
  induction l with
  | nil => simp [insertEntry]
  | cons x xs ih =>
    obtain ⟨hx, hxs⟩ := List.pairwise_cons.mp h
    unfold insertEntry
    by_cases hb : e.before x = true
    · simp only [hb, if_true]
      have hb' := (before_iff e x).mp hb
      refine List.pairwise_cons.mpr ⟨fun y hy => ?_, h⟩
      rcases List.mem_cons.mp hy with rfl | hy
      · exact hb'
      · exact hb'.trans (hx y hy)
    · simp only [hb]
      refine List.pairwise_cons.mpr ⟨fun y hy => ?_, ih (fun y hy => hs y (List.mem_cons_of_mem _ hy)) hxs⟩
      rcases mem_insertEntry.mp hy with rfl | hy
      · exact ListBefore.of_not (fun hc => hb ((before_iff _ _).mpr hc)) (hs x List.mem_cons_self)
      · exact hx y hy

/-- A slot found by a SCAN matches the condition. -/
theorem scanWalk_found (s : State) (c : Condition) (d : WalkDirection) (n : Nat) (i j : Fin 48) (h : (scanWalk s c d n i).found = some j) :
    s.slotMatches c j = true := by
  induction n generalizing i with
  | zero => simp [scanWalk] at h
  | succ n ih =>
    unfold scanWalk at h
    split at h
    · rename_i hm; simp at h; exact h ▸ hm
    · split at h
      · simp at h
      · split at h
        · exact ih _ h
        · simp at h

end Sys2Proof.Machine
end

