-- ==== Sys2Proof/Laws/PerInstr.lean ====
section
/-! SUPPORT. The family Framed, of the commands as syntax: the frame of a well-formed command passes checks 1 and 2 of R178. One lemma for each command. -/

namespace Sys2Proof

/-- A frame of at most 30 payload bytes passes the length check. -/
theorem linkFrame_lengthSound (c : Byte) (p : List Byte) (h : p.length ≤ 30) : lengthSound (linkFrame c p) = true := by
  have hb : (BitVec.ofNat 8 p.length).toNat = p.length := by
    rw [BitVec.toNat_ofNat]
    omega
  simp only [lengthSound, linkFrame, Bool.and_eq_true]
  refine ⟨⟨by simp, ?_⟩, ?_⟩ <;> simp [hb, h]

/-- A frame passes the CRC check. -/
theorem linkFrame_crcSound (c : Byte) (p : List Byte) : crcSound (linkFrame c p) = true := by
  unfold crcSound linkFrame
  generalize c :: BitVec.ofNat 8 p.length :: p = body
  simp [List.getLastD_eq_getLast?]

/-- The frame a command makes of a code and a payload is sound where the payload is short enough. -/
theorem linkFrame_sound (c : Byte) (p : List Byte) (h : p.length ≤ 30) :
    lengthSound (linkFrame c p) = true ∧ crcSound (linkFrame c p) = true := ⟨linkFrame_lengthSound c p h, linkFrame_crcSound c p⟩

namespace Laws.Framed

/-- Where the command has a code of R190, its frame passes checks 1 and 2 of R178. -/
def Statement (i : Instr) : Prop :=
  ∀ c p, commandOf i = some (c, p) → lengthSound (linkFrame c p) = true ∧ crcSound (linkFrame c p) = true

/-- A command with no code of R190 has no frame of one. -/
theorem of_none {i : Instr} (h : commandOf i = none) : Statement i := fun c p hc => by rw [h] at hc; cases hc

/-- A command whose payload is short enough. -/
theorem of_some {i : Instr} {c : Byte} {p : List Byte} (h : commandOf i = some (c, p)) (hl : p.length ≤ 30) : Statement i := fun c' p' hc => by
  rw [h] at hc
  cases hc
  exact linkFrame_sound _ _ hl

theorem resetnLow : Statement (.resetnLow) := of_none rfl
theorem resetnRise : Statement (.resetnRise) := of_none rfl
theorem emptyTransaction (clocks : Nat) : Statement (.emptyTransaction clocks) := of_none rfl
theorem readTransaction (rest : List Byte) : Statement (.readTransaction rest) := of_none rfl
theorem badframe (bytes : List Byte) : Statement (.badframe bytes) := of_none rfl
theorem unknown (code : Byte) (payload : List Byte) : Statement (.unknown code payload) := of_none rfl
theorem create (kind cls : Byte) : Statement (.create kind cls) := of_some rfl (Nat.le_of_ble_eq_true rfl)
theorem retire (slot gen : Byte) : Statement (.retire slot gen) := of_some rfl (Nat.le_of_ble_eq_true rfl)
theorem read (slot gen group : Byte) : Statement (.read slot gen group) := of_some rfl (Nat.le_of_ble_eq_true rfl)
theorem setParameters (slot gen selector : Byte) (window coastTime fixInterval : BitVec 16) (searchRings : Byte) (searchLimit : BitVec 16) : Statement (.setParameters slot gen selector window coastTime fixInterval searchRings searchLimit) := of_some rfl (Nat.le_of_ble_eq_true rfl)
theorem setReference (slot gen selector : Byte) (azimuth elevation range : BitVec 32) (angleTolerance : BitVec 16) (rangeTolerance : BitVec 32) : Statement (.setReference slot gen selector azimuth elevation range angleTolerance rangeTolerance) := of_some rfl (Nat.le_of_ble_eq_true rfl)
theorem setReferenceRemoval (slot gen selector : Byte) : Statement (.setReferenceRemoval slot gen selector) := of_some rfl (Nat.le_of_ble_eq_true rfl)
theorem setHold (slot gen selector value : Byte) : Statement (.setHold slot gen selector value) := of_some rfl (Nat.le_of_ble_eq_true rfl)
theorem setAutoResume (slot gen value : Byte) : Statement (.setAutoResume slot gen value) := of_some rfl (Nat.le_of_ble_eq_true rfl)
theorem changeKind (slot gen expected wanted : Byte) : Statement (.changeKind slot gen expected wanted) := of_some rfl (Nat.le_of_ble_eq_true rfl)
theorem take (slot gen : Byte) : Statement (.take slot gen) := of_some rfl (Nat.le_of_ble_eq_true rfl)
theorem give (slot gen : Byte) : Statement (.give slot gen) := of_some rfl (Nat.le_of_ble_eq_true rfl)
theorem windows (selector stationBase stationLength pendantBase pendantLength : Byte) : Statement (.windows selector stationBase stationLength pendantBase pendantLength) := of_some rfl (Nat.le_of_ble_eq_true rfl)
theorem classEntryRead (cls : Byte) : Statement (.classEntryRead cls) := of_some rfl (Nat.le_of_ble_eq_true rfl)
theorem classEntryWrite (cls : Byte) (sphereOffset captureRadius centreRadius minIntensity rangeAgreement ringStep : BitVec 16) : Statement (.classEntryWrite cls sphereOffset captureRadius centreRadius minIntensity rangeAgreement ringStep) := of_some rfl (Nat.le_of_ble_eq_true rfl)
theorem changeClass (slot gen cls : Byte) : Statement (.changeClass slot gen cls) := of_some rfl (Nat.le_of_ble_eq_true rfl)
theorem pursue (slot gen flags priority : Byte) (azimuth elevation : BitVec 32) : Statement (.pursue slot gen flags priority azimuth elevation) := of_some rfl (Nat.le_of_ble_eq_true rfl)
theorem release (slot gen : Byte) : Statement (.release slot gen) := of_some rfl (Nat.le_of_ble_eq_true rfl)
theorem priorityRead (origin : Byte) : Statement (.priorityRead origin) := of_some rfl (Nat.le_of_ble_eq_true rfl)
theorem priorityWrite (origin value : Byte) : Statement (.priorityWrite origin value) := of_some rfl (Nat.le_of_ble_eq_true rfl)
theorem park : Statement (.park) := of_some rfl (Nat.le_of_ble_eq_true rfl)
theorem unpark : Statement (.unpark) := of_some rfl (Nat.le_of_ble_eq_true rfl)
theorem beamStatus : Statement (.beamStatus) := of_some rfl (Nat.le_of_ble_eq_true rfl)
theorem setRevisit (slot gen : Byte) (period : BitVec 16) : Statement (.setRevisit slot gen period) := of_some rfl (Nat.le_of_ble_eq_true rfl)
theorem revisitEntry (position : Byte) : Statement (.revisitEntry position) := of_some rfl (Nat.le_of_ble_eq_true rfl)
theorem syncRead : Statement (.syncRead) := of_some rfl (Nat.le_of_ble_eq_true rfl)
theorem syncWrite (value : BitVec 64) : Statement (.syncWrite value) := of_some rfl (Nat.le_of_ble_eq_true rfl)
theorem portStatus : Statement (.portStatus) := of_some rfl (Nat.le_of_ble_eq_true rfl)
theorem noticeControlRead : Statement (.noticeControlRead) := of_some rfl (Nat.le_of_ble_eq_true rfl)
theorem noticeControlWrite (recordMask deviceMask master : Byte) : Statement (.noticeControlWrite recordMask deviceMask master) := of_some rfl (Nat.le_of_ble_eq_true rfl)
theorem nextNotice : Statement (.nextNotice) := of_some rfl (Nat.le_of_ble_eq_true rfl)
theorem deviceStatus : Statement (.deviceStatus) := of_some rfl (Nat.le_of_ble_eq_true rfl)
theorem scan (start direction count : Byte) (condition : ConditionBytes) : Statement (.scan start direction count condition) := of_some rfl (Nat.le_of_ble_eq_true rfl)
theorem sweep (start direction count : Byte) (condition : ConditionBytes) (action : Byte) : Statement (.sweep start direction count condition action) := of_some rfl (Nat.le_of_ble_eq_true rfl)
theorem sweepStatus : Statement (.sweepStatus) := of_some rfl (Nat.le_of_ble_eq_true rfl)
theorem sweepStop : Statement (.sweepStop) := of_some rfl (Nat.le_of_ble_eq_true rfl)
theorem reset : Statement (.reset) := of_some rfl (Nat.le_of_ble_eq_true rfl)
theorem sweepStep : Statement (.sweepStep) := of_none rfl
theorem detectorFrame (frame : Frame) : Statement (.detectorFrame frame) := of_none rfl
theorem arrived (tag : Byte) : Statement (.arrived tag) := of_none rfl
theorem driveFault (tag : Byte) (reason : DriveFaultReason) : Statement (.driveFault tag reason) := of_none rfl
theorem reading (tag : Byte) (distance : Nat) : Statement (.reading tag distance) := of_none rfl
theorem fail (tag : Byte) (reason : RangeFailReason) : Statement (.fail tag reason) := of_none rfl
theorem rangeTimeout : Statement (.rangeTimeout) := of_none rfl
theorem coastDeadlineExpiry : Statement (.coastDeadlineExpiry) := of_none rfl
theorem searchDeadlineExpiry : Statement (.searchDeadlineExpiry) := of_none rfl
theorem fixWaitExpiry : Statement (.fixWaitExpiry) := of_none rfl
theorem dueTimeExpiry : Statement (.dueTimeExpiry) := of_none rfl
theorem pendantFrameError (error : PendantError) : Statement (.pendantFrameError error) := of_none rfl
theorem poll (payload : List Byte) : Statement (.poll payload) := of_none rfl
theorem claimNew (payload : List Byte) : Statement (.claimNew payload) := of_none rfl
theorem find (payload : List Byte) : Statement (.find payload) := of_none rfl
theorem letGo (payload : List Byte) : Statement (.letGo payload) := of_none rfl
theorem holdOn (payload : List Byte) : Statement (.holdOn payload) := of_none rfl
theorem holdOff (payload : List Byte) : Statement (.holdOff payload) := of_none rfl
theorem mark (payload : List Byte) : Statement (.mark payload) := of_none rfl
theorem drop (payload : List Byte) : Statement (.drop payload) := of_none rfl
theorem pendantSilenceExpiry : Statement (.pendantSilenceExpiry) := of_none rfl
theorem statusFrameSent : Statement (.statusFrameSent) := of_none rfl
theorem lineReturnToIdle : Statement (.lineReturnToIdle) := of_none rfl

end Laws.Framed

end Sys2Proof
end

