-- ==== Sys2Proof/Laws/Settle.lean ====
section
/-! SUPPORT. The passes at the end of an event when there is nothing to offer, what a pass over DUE entries leaves entry by entry, and a record written
under its handle. -/

namespace Sys2Proof.Machine

variable (s : State)

/-- A trigger that stands cleared is cleared already. -/
theorem setPassWanted_same {b : Bool} (h : s.scheduler.passWanted = b) : s.setPassWanted b = s := by subst h; rfl

/-- An event that leaves no trigger and no shorter queue is followed by no pass. -/
theorem settle_calm {n : Nat} (calm : s.scheduler.passWanted = false) (longer : n ≤ s.arbiter.queue.length) : s.settle n = s := by
  have hn : ¬s.arbiter.queue.length < n := by omega
  simp only [State.settle, hn, if_false, passLoop, calm]
  simp [setPassWanted_same s calm]

/-- Passes with no entry DUE change nothing but the trigger. -/
theorem passLoop_nothingDue (fuel : Nat) : ∀ s : State, s.dueSlots = [] → passLoop fuel s = s.setPassWanted false := by
  induction fuel with
  | zero => intro s _; rfl
  | succ n ih =>
    intro s due
    have due' : (s.setPassWanted false).dueSlots = [] := due
    simp only [passLoop, State.offerPass, due', offerWalk]
    split
    · have : ¬(s.setPassWanted false).arbiter.queue.length < s.arbiter.queue.length := by simp [State.setPassWanted]
      rw [if_neg this, ih _ due']; rfl
    · rfl

/-- An event that leaves no entry DUE is followed by passes that change nothing. -/
theorem settle_nothingDue {n : Nat} (due : s.dueSlots = []) : s.settle n = s.setPassWanted false := by
  unfold State.settle
  split <;> exact passLoop_nothingDue _ _ due

/-- The slots a pass walks are those of the DUE entries. -/
theorem dueSlots_eq : s.dueSlots = (dueEntries s).map fun e => e.handle.slot := rfl

/-- A pass over no entry changes nothing. -/
@[simp] theorem offersMade_nil : offersMade [] s = s := rfl

/-- A pass passes over an entry whose record is gone. -/
theorem offersMade_gone {e : RevisitEntry} (rest : List RevisitEntry) (hl : s.live e.handle = none) : offersMade (e :: rest) s = offersMade rest s := by
  simp [offersMade, hl]

/-- A pass passes over an entry whose record is not DORMANT. -/
theorem offersMade_busy {e : RevisitEntry} {r : Record} (rest : List RevisitEntry) (hl : s.live e.handle = some r) (hs : r.state ≠ .dormant) :
    offersMade (e :: rest) s = offersMade rest s := by
  simp [offersMade, hl, hs]

/-- A pass misses an entry whose record has no position. -/
theorem offersMade_missed {e : RevisitEntry} {r : Record} (rest : List RevisitEntry) (hl : s.live e.handle = some r) (hs : r.state = .dormant)
    (hp : r.position = none) : offersMade (e :: rest) s = offersMade rest (offerMissed s e.handle r) := by
  simp [offersMade, hl, hs, hp]

/-- A pass ends at an offer that finds the queue full. -/
theorem offersMade_full {e : RevisitEntry} {r : Record} {d : Direction} (rest : List RevisitEntry) (hl : s.live e.handle = some r)
    (hs : r.state = .dormant) (hp : r.position = some d) (hq : 12 ≤ s.arbiter.queue.length) : offersMade (e :: rest) s = s := by
  simp [offersMade, hl, hs, hp, hq]

/-- A pass grants an offer at a free beam, and queues one under a grant. -/
theorem offersMade_taken {e : RevisitEntry} {r : Record} {d : Direction} (rest : List RevisitEntry) (hl : s.live e.handle = some r)
    (hs : r.state = .dormant) (hp : r.position = some d) (hq : s.arbiter.queue.length < 12) :
    offersMade (e :: rest) s = offersMade rest (if s.arbiter.grant = none then offerGranted s e.handle r d else offerQueued s e.handle r) := by
  simp [offersMade, hl, hs, hp, Nat.not_le.mpr hq]

/-- A change delivered to a live record writes the changed record in its place. -/
theorem modifyRecord_live {h : Handle} {r : Record} (f : Record → Record) (hl : s.live h = some r) :
    s.modifyRecord h f = s.withRecord h (f r) := by simp [State.modifyRecord, State.withRecord, hl]

/-- A record written in place of a live one is live. -/
theorem live_withRecord (h : Handle) (r : Record) : (s.withRecord h r).live h = some r := by
  simp [live_eq_some, State.withRecord, State.recordAt]

/-- Of two records written in one place the later stands. -/
theorem withRecord_withRecord (h : Handle) (r r' : Record) : (s.withRecord h r).withRecord h r' = s.withRecord h r' := by
  simp [State.withRecord, State.setSlot]

/-- A live record written again is the state as it stands. -/
theorem withRecord_self {h : Handle} {r : Record} (hl : s.live h = some r) : s.withRecord h r = s := by
  rw [live_eq_some] at hl
  obtain ⟨hg, hr⟩ := hl
  have : s.slotAt h.slot = { generation := h.generation, record := some r } := by rw [← hg, ← hr]; rfl
  simp only [State.withRecord, State.setSlot]
  rw [← this]
  simp [State.slotAt]

/-- What is pending does not depend on anything of a record but its notices. -/
theorem anyPending_withRecord {h : Handle} {r : Record} (r' : Record) (hl : s.live h = some r) (hn : r'.notices = r.notices) :
    (s.withRecord h r').anyPending = s.anyPending := by
  rw [live_eq_some] at hl
  have e : (s.withRecord h r').slotPending = s.slotPending := by
    funext i
    unfold State.slotPending
    by_cases hi : h.slot = i
    · subst hi
      have h1 : (s.withRecord h r').recordAt h.slot = some r' := by simp [State.withRecord, State.recordAt]
      have h2 : (s.withRecord h r').notices = s.notices := rfl
      rw [h1, hl.2, h2]
      show decide (s.notices.unmaskedRecord r' ≠ 0#8) = decide (s.notices.unmaskedRecord r ≠ 0#8)
      have h3 : s.notices.unmaskedRecord r' = s.notices.unmaskedRecord r := by simp [NoticeUnit.unmaskedRecord, hn]
      rw [h3]
    · have h1 : (s.withRecord h r').recordAt i = s.recordAt i := by
        simp [State.withRecord, State.recordAt, slotAt_setSlot_ne _ _ _ _ hi]
      rw [h1]; rfl
  simp only [State.anyPending, e]
  simp [State.withRecord]

/-- The line judged before or after a record is written that keeps its notices. -/
theorem judgeLine_withRecord {h : Handle} {r : Record} (r' : Record) (hl : s.live h = some r) (hn : r'.notices = r.notices) :
    (s.withRecord h r').judgeLine = s.judgeLine.withRecord h r' := by
  simp only [State.judgeLine, anyPending_withRecord s r' hl hn]
  rfl

/-- A device notice set before or after a record is written that keeps its notices. -/
theorem setDeviceNotice_withRecord {h : Handle} {r : Record} (r' : Record) (hl : s.live h = some r) (hn : r'.notices = r.notices)
    (k : DeviceNotice) : (s.withRecord h r').setDeviceNotice k = (s.setDeviceNotice k).withRecord h r' :=
  judgeLine_withRecord { s with notices := { s.notices with device := s.notices.device ||| deviceBit k } } r' hl hn

end Sys2Proof.Machine
end

