-- ==== Sys2Proof/Laws/Spiral.lean ====
section
/-! SUPPORT. The offsets of the search spiral are what R69 says: radius times cosine and radius times sine, truncated toward zero (offsets_truncate). For each
angle the computed cosine and the cosine itself lie between two neighbouring fractions whose denominators add up to more than any radius; no whole number
parts them at a radius, then. That the cosine lies there is read off the Chebyshev polynomials, whose values at the cosine of one step, 60° / 2k, are the
cosines of its multiples. -/

namespace Sys2Proof.Machine

/-- The recurrence of the Chebyshev polynomials at a / d, cleared of denominators. -/
def chebyshevLoop (a d : Int) : (n : Nat) → (x y : Int) → Int
  | 0, x, _ => x
  | n + 1, x, y => chebyshevLoop a d n y (2 * a * y - d * d * x)

/-- The Chebyshev polynomial of degree n at a / d, times d to the n. -/
def chebyshev (a d : Int) (n : Nat) : Int := chebyshevLoop a d n 1 a

/-- The fixed point of the cosine of a step: 40 decimals. -/
def stepScale : Int := 10000000000000000000000000000000000000000

/-- The cosine of a step, 30° / k, cut off at the fixed point. -/
def stepCosine : Nat → Int
  | 1 => 8660254037844386467637231707529361834714
  | 2 => 9659258262890682867497431997288973676339
  | 3 => 9848077530122080593667430245895230136706
  | 4 => 9914448613738104111445575269285628712777
  | 5 => 9945218953682733369226919449805703815207
  | 6 => 9961946980917455322950104024738880461835
  | 7 => 9972037971811801482250298708781192656558
  | 8 => 9978589232386035067380697912727776045318
  | 9 => 9983081582712682080478207087832775329370
  | 10 => 9986295347545738737844920584394365805909
  | 11 => 9988673391830079766626725799084316622350
  | _ => 9990482215818577624037162194033297553504

/-- Two neighbouring fractions around v / s, from p / q and p' / q' on, whose denominators add up to more than 120,000, the greatest radius. -/
def neighbours (v s : Nat) : (fuel : Nat) → (p q p' q' : Nat) → Nat × Nat × Nat × Nat
  | 0, p, q, p', q' => (p, q, p', q')
  | n + 1, p, q, p', q' =>
    if 120000 < q + q' then (p, q, p', q')
    else
      let up := min ((v * q - p * s - 1) / (p' * s - v * q')) ((120000 - q - q') / q' + 1)
      let p := p + up * p'
      let q := q + up * q'
      if 120000 < q + q' then (p, q, p', q')
      else
        let down := min ((p' * s - v * q' - 1) / (v * q - p * s)) ((120000 - q - q') / q + 1)
        neighbours v s n p q (p' + down * p) (q' + down * q)

/-- A computed cosine v and the cosine of m steps lie strictly between the same two neighbouring fractions. -/
def encloses (k m v : Nat) : Bool :=
  let c := neighbours v trigScale.toNat 40 0 1 1 1
  decide (c.1 * trigScale.toNat < v * c.2.1) && decide (v * c.2.2.2 < c.2.2.1 * trigScale.toNat) && decide (c.2.2.1 * c.2.1 = c.1 * c.2.2.2 + 1)
    && decide (120000 < c.2.1 + c.2.2.2) && decide (0 < c.2.2.2)
    && decide ((c.1 : Int) * stepScale ^ m < c.2.1 * chebyshev (stepCosine k) stepScale m)
    && decide ((c.2.2.2 : Int) * chebyshev (stepCosine k + 1) stepScale m < c.2.2.1 * stepScale ^ m)

/-- A computed cosine of m steps, up to a quarter turn: exact at 0°, 60° and 90°, enclosed elsewhere. -/
def quarterFits (k m v : Nat) : Bool :=
  if m = 0 then decide ((v : Int) = trigScale) else if m = 2 * k then decide (2 * (v : Int) = trigScale) else if m = 3 * k then decide (v = 0)
  else encloses k m v

/-- The cosine of m steps as plus or minus the cosine of fewer, up to a quarter turn. -/
def foldCosine (k m : Nat) : Bool × Nat :=
  if m ≤ 3 * k then (true, m) else if m ≤ 6 * k then (false, 6 * k - m) else if m ≤ 9 * k then (false, m - 6 * k) else (true, 12 * k - m)

/-- The sine of m steps as plus or minus a cosine of steps up to a quarter turn. -/
def foldSine (k m : Nat) : Bool × Nat :=
  if m ≤ 3 * k then (true, 3 * k - m) else if m ≤ 6 * k then (true, m - 3 * k) else if m ≤ 9 * k then (false, 9 * k - m) else (false, m - 9 * k)

/-- A computed number fits its fold. -/
def turnFits (k : Nat) (x : Int) (fold : Bool × Nat) : Bool :=
  decide (x = if fold.1 then (x.natAbs : Int) else -(x.natAbs : Int)) && quarterFits k fold.2 x.natAbs

/-- The computed cosines and sines of a ring fit. -/
def ringFits (k : Nat) : Bool :=
  (List.range (6 * k)).all fun j => turnFits k (cosTurn k j) (foldCosine k (2 * j)) && turnFits k (sinTurn k j) (foldSine k (2 * j))


/-! ### The Chebyshev polynomials -/

/-- The cosines of multiples of an angle obey the recurrence. -/
theorem cos_step (n : ℕ) (x : ℝ) : Real.cos ((n + 2 : ℕ) * x) = 2 * Real.cos x * Real.cos ((n + 1 : ℕ) * x) - Real.cos (n * x) := by
  have h1 : ((n + 2 : ℕ) : ℝ) * x = (n + 1 : ℕ) * x + x := by push_cast; ring
  have h2 : (n : ℝ) * x = (n + 1 : ℕ) * x - x := by push_cast; ring
  rw [h1, h2, Real.cos_add, Real.cos_sub]; ring

theorem chebyshevLoop_real {a d : Int} {x : ℝ} (h : (a : ℝ) = d * Real.cos x) (n : ℕ) :
    ∀ (m : ℕ) (y z : Int), (y : ℝ) = d ^ m * Real.cos (m * x) → (z : ℝ) = d ^ (m + 1) * Real.cos ((m + 1 : ℕ) * x) →
      (chebyshevLoop a d n y z : ℝ) = d ^ (m + n) * Real.cos ((m + n : ℕ) * x) := by
  induction n with
  | zero => intro m y z hy _; simpa [chebyshevLoop] using hy
  | succ n ih =>
    intro m y z hy hz
    have := ih (m + 1) z (2 * a * z - d * d * y) hz (by
      push_cast [hy, hz, h]
      have := cos_step m x
      push_cast at this
      rw [show (m : ℝ) + 1 + 1 = m + 2 by ring, this]; ring)
    rw [show m + (n + 1) = m + 1 + n by omega]
    simpa [chebyshevLoop] using this

/-- At d times a cosine, the polynomial of degree n is d to the n times the cosine of n times the angle. -/
theorem chebyshev_real {a d : Int} {x : ℝ} (h : (a : ℝ) = d * Real.cos x) (n : ℕ) :
    (chebyshev a d n : ℝ) = d ^ n * Real.cos (n * x) := by
  have := chebyshevLoop_real h n 0 1 a (by simp) (by simp [h])
  simpa [chebyshev] using this

/-! ### The brackets -/

/-- The step of the angles: 60° / 2k. -/
noncomputable def stepAngle (k : ℕ) : ℝ := Real.pi / (6 * k)

/-- The cut-off cosine of a step is below the cosine of 30° / k, and the next number above: judged by the polynomial of degree 2k at 60°. -/
def stepFits (k : Nat) : Bool :=
  let b := stepCosine k
  decide (2 * chebyshev b stepScale (2 * k) < stepScale ^ (2 * k)) && decide (stepScale ^ (2 * k) < 2 * chebyshev (b + 1) stepScale (2 * k))
    && decide (36 * k ^ 2 * b ≥ (36 * k ^ 2 - 8) * stepScale) && decide (b + 1 ≤ stepScale)

theorem stepFits_all : ((List.range 12).all fun k => stepFits (k + 1)) = true := by decide +kernel

theorem stepFits_of {k : ℕ} (h1 : 1 ≤ k) (h2 : k ≤ 12) : stepFits k = true := by
  have := List.all_eq_true.mp stepFits_all (k - 1) (by simp; omega)
  rwa [show k - 1 + 1 = k by omega] at this

/-- An angle whose cosine is at least that of two steps is at most two steps. -/
theorem angle_le_two_steps {k : ℕ} (hk : 1 ≤ k) {x : ℝ} (hx : x ≤ Real.pi)
    (h : 1 - 8 / (36 * (k : ℝ) ^ 2) ≤ Real.cos x) : x ≤ 2 * stepAngle k := by
  have hk' : (1 : ℝ) ≤ k := by exact_mod_cast hk
  by_contra hc
  push Not at hc
  have hs : 0 < stepAngle k := by unfold stepAngle; positivity
  have h1 := Real.cos_lt_cos_of_nonneg_of_le_pi (by positivity) hx hc
  have h2 : Real.cos (2 * stepAngle k) ≤ 1 - 2 / Real.pi ^ 2 * (2 * stepAngle k) ^ 2 := by
    refine Real.cos_le_one_sub_mul_cos_sq ?_
    rw [abs_of_pos (by positivity)]; exact (hc.le.trans hx)
  have h3 : 2 / Real.pi ^ 2 * (2 * stepAngle k) ^ 2 = 8 / (36 * (k : ℝ) ^ 2) := by
    unfold stepAngle; field_simp; norm_num
  linarith

/-- The cosine of the step, bracketed. -/
theorem step_bracket {k : ℕ} (h1 : 1 ≤ k) (h2 : k ≤ 12) :
    ∃ lo hi : ℝ, (stepCosine k + 1 : Int) = (stepScale : ℝ) * Real.cos lo ∧ (stepCosine k : ℝ) = stepScale * Real.cos hi
      ∧ 0 ≤ lo ∧ lo ≤ stepAngle k ∧ stepAngle k ≤ hi ∧ hi ≤ 2 * stepAngle k := by
  have hf := stepFits_of h1 h2
  simp only [stepFits, Bool.and_eq_true, decide_eq_true_eq] at hf
  obtain ⟨⟨⟨f1, f2⟩, f3⟩, f4⟩ := hf
  have hk' : (1 : ℝ) ≤ k := by exact_mod_cast h1
  have hd : (0 : ℝ) < stepScale := by simp [stepScale]
  have hs : 0 < stepAngle k := by unfold stepAngle; positivity
  have f3' : (36 * (k : ℝ) ^ 2 - 8) * stepScale ≤ 36 * (k : ℝ) ^ 2 * stepCosine k := by exact_mod_cast f3
  have f4' : (stepCosine k : ℝ) + 1 ≤ stepScale := by exact_mod_cast f4
  have low : 1 - 8 / (36 * (k : ℝ) ^ 2) ≤ stepCosine k / stepScale := by
    rw [le_div_iff₀ hd]
    have : (1 - 8 / (36 * (k : ℝ) ^ 2)) * stepScale = (36 * (k : ℝ) ^ 2 - 8) * stepScale / (36 * (k : ℝ) ^ 2) := by field_simp
    rw [this, div_le_iff₀ (by positivity)]; linarith
  have pos : 0 ≤ 1 - 8 / (36 * (k : ℝ) ^ 2) := by
    have : 8 / (36 * (k : ℝ) ^ 2) ≤ 1 := by rw [div_le_one (by positivity)]; nlinarith
    linarith
  have hb1 : (stepCosine k : ℝ) / stepScale ≤ 1 := by rw [div_le_one hd]; linarith
  have ha0 : (stepCosine k : ℝ) / stepScale ≤ (stepCosine k + 1) / stepScale := by gcongr; linarith
  have ha1 : ((stepCosine k : ℝ) + 1) / stepScale ≤ 1 := by rw [div_le_one hd]; exact f4'
  have clo := Real.cos_arccos (x := ((stepCosine k : ℝ) + 1) / stepScale) (by linarith) ha1
  have chi := Real.cos_arccos (x := (stepCosine k : ℝ) / stepScale) (by linarith) hb1
  have llo : Real.arccos (((stepCosine k : ℝ) + 1) / stepScale) ≤ 2 * stepAngle k :=
    angle_le_two_steps h1 (Real.arccos_le_pi _) (by rw [clo]; linarith)
  have lhi : Real.arccos ((stepCosine k : ℝ) / stepScale) ≤ 2 * stepAngle k :=
    angle_le_two_steps h1 (Real.arccos_le_pi _) (by rw [chi]; linarith)
  have a0 := Real.arccos_nonneg (((stepCosine k : ℝ) + 1) / stepScale)
  have b0 := Real.arccos_nonneg ((stepCosine k : ℝ) / stepScale)
  generalize Real.arccos (((stepCosine k : ℝ) + 1) / stepScale) = lo at clo llo a0
  generalize Real.arccos ((stepCosine k : ℝ) / stepScale) = hi at chi lhi b0
  have elo : ((stepCosine k + 1 : Int) : ℝ) = (stepScale : ℝ) * Real.cos lo := by rw [clo]; push_cast; field_simp
  have ehi : (stepCosine k : ℝ) = stepScale * Real.cos hi := by rw [chi]; field_simp
  have third : (2 * k : ℕ) * stepAngle k = Real.pi / 3 := by unfold stepAngle; push_cast; field_simp; norm_num
  have hp : (0 : ℝ) < (stepScale : ℝ) ^ (2 * k) := by positivity
  have hk2 : (0 : ℝ) < (2 * k : ℕ) := by push_cast; linarith
  refine ⟨lo, hi, elo, ehi, a0, ?_, ?_, lhi⟩
  · by_contra hc
    push Not at hc
    have h := chebyshev_real elo (2 * k)
    have f2' : ((stepScale : ℝ)) ^ (2 * k) < 2 * chebyshev (stepCosine k + 1) stepScale (2 * k) := by exact_mod_cast f2
    rw [h] at f2'
    have : Real.cos ((2 * k : ℕ) * lo) < Real.cos (Real.pi / 3) := by
      rw [← third]
      refine Real.cos_lt_cos_of_nonneg_of_le_pi (by positivity) ?_ (by gcongr)
      have : (2 * k : ℕ) * lo ≤ (2 * k : ℕ) * (2 * stepAngle k) := by gcongr
      have := Real.pi_pos
      nlinarith
    rw [Real.cos_pi_div_three] at this
    nlinarith
  · by_contra hc
    push Not at hc
    have h := chebyshev_real ehi (2 * k)
    have f1' : 2 * (chebyshev (stepCosine k) stepScale (2 * k) : ℝ) < (stepScale : ℝ) ^ (2 * k) := by exact_mod_cast f1
    rw [h] at f1'
    have : Real.cos (Real.pi / 3) < Real.cos ((2 * k : ℕ) * hi) := by
      rw [← third]
      refine Real.cos_lt_cos_of_nonneg_of_le_pi (by positivity) ?_ (by gcongr)
      rw [third]; have := Real.pi_pos; linarith
    rw [Real.cos_pi_div_three] at this
    nlinarith

/-- The cosine of m steps, up to a quarter turn, lies between the two Chebyshev values. -/
theorem chebyshev_bracket {k m : ℕ} (h1 : 1 ≤ k) (h2 : k ≤ 12) (hm : m ≤ 3 * k) :
    (chebyshev (stepCosine k) stepScale m : ℝ) ≤ stepScale ^ m * Real.cos (m * stepAngle k)
      ∧ stepScale ^ m * Real.cos (m * stepAngle k) ≤ (chebyshev (stepCosine k + 1) stepScale m : ℝ) := by
  obtain ⟨lo, hi, elo, ehi, l0, l1, l2, l3⟩ := step_bracket h1 h2
  have hd : (0 : ℝ) < stepScale := by simp [stepScale]
  have hp : (0 : ℝ) ≤ (stepScale : ℝ) ^ m := by positivity
  have hk : (1 : ℝ) ≤ k := by exact_mod_cast h1
  have hm' : (m : ℝ) ≤ 3 * k := by exact_mod_cast hm
  have hs : 0 < stepAngle k := by unfold stepAngle; positivity
  have half : 3 * k * (2 * stepAngle k) = Real.pi := by unfold stepAngle; field_simp; norm_num
  have b1 : m * hi ≤ Real.pi := by
    have : 0 ≤ hi := hs.le.trans l2
    calc (m : ℝ) * hi ≤ 3 * k * (2 * stepAngle k) := by gcongr
      _ = Real.pi := half
  rw [chebyshev_real ehi, chebyshev_real elo]
  constructor
  · refine mul_le_mul_of_nonneg_left (Real.cos_le_cos_of_nonneg_of_le_pi (by positivity) b1 (by gcongr)) hp
  · refine mul_le_mul_of_nonneg_left (Real.cos_le_cos_of_nonneg_of_le_pi (by positivity) ?_ (by gcongr)) hp
    exact (mul_le_mul_of_nonneg_left l2 (by positivity)).trans b1

/-- Between two neighbouring fractions no fraction of a smaller denominator lies, so two numbers between them have the same whole parts at it. -/
theorem between_neighbours {p q p' q' r n : ℕ} {x y : ℝ} (hq : 0 < q) (hq' : 0 < q') (hr : r < q + q') (det : p' * q = p * q' + 1)
    (x1 : (p : ℝ) < x * q) (y2 : y * q' < p') (h1 : r * x < n) (h2 : (n : ℝ) ≤ r * y) : False := by
  have hq0 : (0 : ℝ) < q := by exact_mod_cast hq
  have hq0' : (0 : ℝ) < q' := by exact_mod_cast hq'
  have r0 : 0 < r := by
    rcases Nat.eq_zero_or_pos r with h | h
    · subst h; simp at h1 h2; simp [h2] at h1
    · exact h
  have hr0 : (0 : ℝ) < r := by exact_mod_cast r0
  have a1 : (p * r : ℝ) < n * q := by nlinarith
  have a2 : (n * q' : ℝ) < p' * r := by nlinarith
  have b1 : p * r + 1 ≤ n * q := by exact_mod_cast a1
  have b2 : n * q' + 1 ≤ p' * r := by exact_mod_cast a2
  nlinarith [Nat.mul_le_mul_left q' b1, Nat.mul_le_mul_left q b2]

/-- Two numbers strictly between neighbouring fractions have the same whole part at every radius below the sum of the denominators. -/
theorem neighbours_floor {p q p' q' r v s : ℕ} {x : ℝ} (hs : 0 < s) (hq' : 0 < q') (hr : r < q + q') (det : p' * q = p * q' + 1)
    (x1 : (p : ℝ) < x * q) (x2 : x * q' < p') (v1 : p * s < v * q) (v2 : v * q' < p' * s) :
    ((r * v / s : ℕ) : ℝ) ≤ r * x ∧ r * x < (r * v / s : ℕ) + 1 := by
  have hs' : (0 : ℝ) < s := by exact_mod_cast hs
  have hq : 0 < q := Nat.pos_of_ne_zero fun h => by subst h; simp at det
  have w1 : (p : ℝ) < v / s * q := by
    rw [div_mul_eq_mul_div, lt_div_iff₀ hs']; exact_mod_cast v1
  have w2 : (v : ℝ) / s * q' < p' := by
    rw [div_mul_eq_mul_div, div_lt_iff₀ hs']; exact_mod_cast v2
  have e : r * ((v : ℝ) / s) = (r * v : ℕ) / s := by push_cast; ring
  constructor
  · by_contra hc
    push Not at hc
    refine between_neighbours hq hq' hr det x1 w2 hc ?_
    rw [e]; exact Nat.cast_div_le
  · by_contra hc
    push Not at hc
    refine between_neighbours (n := r * v / s + 1) hq hq' hr det w1 x2 ?_ (by push_cast; exact hc)
    rw [e, div_lt_iff₀ hs']
    exact_mod_cast Nat.lt_mul_of_div_lt (Nat.lt_succ_self _) hs

/-- The whole part of a radius times the computed number is the whole part of the radius times the cosine. -/
def FloorsAgree (v : ℕ) (x : ℝ) : Prop :=
  ∀ r : ℕ, r ≤ 120000 → ((r * v / trigScale.toNat : ℕ) : ℝ) ≤ r * x ∧ r * x < (r * v / trigScale.toNat : ℕ) + 1

/-- An enclosed number has the cosine's whole parts. -/
theorem floorsAgree_of_encloses {k m v : ℕ} (h1 : 1 ≤ k) (h2 : k ≤ 12) (hm : m ≤ 3 * k) (h : encloses k m v = true) :
    FloorsAgree v (Real.cos (m * stepAngle k)) := by
  intro r hr
  obtain ⟨lower, upper⟩ := chebyshev_bracket h1 h2 hm
  unfold encloses at h
  generalize neighbours v trigScale.toNat 40 0 1 1 1 = c at h
  obtain ⟨p, q, p', q'⟩ := c
  simp only [Bool.and_eq_true, decide_eq_true_eq] at h
  obtain ⟨⟨⟨⟨⟨⟨v1, v2⟩, det⟩, big⟩, hq'⟩, c1⟩, c2⟩ := h
  have hd : (0 : ℝ) < (stepScale : ℝ) ^ m := by simp [stepScale]
  have c1' : (p : ℝ) * stepScale ^ m < q * chebyshev (stepCosine k) stepScale m := by exact_mod_cast c1
  have c2' : (q' : ℝ) * chebyshev (stepCosine k + 1) stepScale m < p' * stepScale ^ m := by exact_mod_cast c2
  have hq0 : (0 : ℝ) ≤ q := by positivity
  have hq0' : (0 : ℝ) ≤ q' := by positivity
  refine neighbours_floor (by decide) hq' (by omega) det ?_ ?_ v1 v2
  · have := mul_le_mul_of_nonneg_left lower hq0
    refine lt_of_mul_lt_mul_right (a := (stepScale : ℝ) ^ m) ?_ hd.le
    linarith
  · have := mul_le_mul_of_nonneg_left upper hq0'
    refine lt_of_mul_lt_mul_right (a := (stepScale : ℝ) ^ m) ?_ hd.le
    linarith

/-- A number that is a fraction exactly has its whole parts. -/
theorem floorsAgree_of_fraction {v n d : ℕ} (hd : 0 < d) (h : d * v = n * trigScale.toNat) : FloorsAgree v (n / d) := by
  intro r _
  have hs : 0 < trigScale.toNat := by decide
  have hd' : (0 : ℝ) < d := by exact_mod_cast hd
  have hs' : (0 : ℝ) < trigScale.toNat := by exact_mod_cast hs
  have e : (r : ℝ) * (n / d) = (r * v : ℕ) / trigScale.toNat := by
    have h' : (d : ℝ) * v = n * trigScale.toNat := by exact_mod_cast h
    rw [eq_div_iff hs'.ne', mul_assoc, div_mul_eq_mul_div, ← h']; push_cast; field_simp
  rw [e]
  refine ⟨Nat.cast_div_le, ?_⟩
  rw [div_lt_iff₀ hs']
  exact_mod_cast Nat.lt_mul_of_div_lt (Nat.lt_succ_self _) hs

/-- A number that fits has the cosine's whole parts. -/
theorem floorsAgree_of_quarterFits {k m v : ℕ} (h1 : 1 ≤ k) (h2 : k ≤ 12) (hm : m ≤ 3 * k) (h : quarterFits k m v = true) :
    FloorsAgree v (Real.cos (m * stepAngle k)) := by
  have hk : (k : ℝ) ≠ 0 := by positivity
  unfold quarterFits at h
  split at h
  · rename_i e
    have hv : v = trigScale.toNat := by have := of_decide_eq_true h; omega
    have := floorsAgree_of_fraction (v := v) (n := 1) (d := 1) (by decide) (by omega)
    simpa [e] using this
  · split at h
    · rename_i e
      have hv : 2 * v = trigScale.toNat := by have := of_decide_eq_true h; omega
      have third : (m : ℝ) * stepAngle k = Real.pi / 3 := by subst e; unfold stepAngle; push_cast; field_simp; norm_num
      have := floorsAgree_of_fraction (v := v) (n := 1) (d := 2) (by decide) (by omega)
      rw [third, Real.cos_pi_div_three]
      simpa using this
    · split at h
      · rename_i e
        have hv : v = 0 := of_decide_eq_true h
        have quarter : (m : ℝ) * stepAngle k = Real.pi / 2 := by subst e; unfold stepAngle; push_cast; field_simp; norm_num
        have := floorsAgree_of_fraction (v := v) (n := 0) (d := 1) (by decide) (by omega)
        rw [quarter, Real.cos_pi_div_two]
        simpa using this
      · exact floorsAgree_of_encloses h1 h2 hm h

/-- Truncation toward zero is even-handed. -/
theorem TruncatesTo.neg {x : ℝ} {z : Int} (h : TruncatesTo x z) : TruncatesTo (-x) (-z) := by
  obtain ⟨a, b, c⟩ := h
  refine ⟨by simpa using a, by simpa using b, by push_cast; linarith⟩

/-- A number that fits its fold, times a radius, truncates as the radius times the cosine or sine does. -/
theorem truncatesTo_of_turnFits {k : ℕ} (h1 : 1 ≤ k) (h2 : k ≤ 12) {x : Int} {fold : Bool × ℕ} {y : ℝ} (hm : fold.2 ≤ 3 * k)
    (h : turnFits k x fold = true) (hy : y = if fold.1 then Real.cos (fold.2 * stepAngle k) else -Real.cos (fold.2 * stepAngle k))
    {r : ℕ} (hr : r ≤ 120000) : TruncatesTo (r * y) (((r : Int) * x).tdiv trigScale) := by
  simp only [turnFits, Bool.and_eq_true, decide_eq_true_eq] at h
  obtain ⟨hx, hq⟩ := h
  obtain ⟨lower, upper⟩ := floorsAgree_of_quarterFits h1 h2 hm hq r hr
  have pos : TruncatesTo (r * Real.cos (fold.2 * stepAngle k)) (((r : Int) * x.natAbs).tdiv trigScale) := by
    have e : ((r : Int) * x.natAbs).tdiv trigScale = ((r * x.natAbs / trigScale.toNat : ℕ) : Int) := by
      rw [← Int.natCast_mul, show trigScale = ((trigScale.toNat : ℕ) : Int) by decide]
      exact (Int.ofNat_tdiv _ _).symm
    rw [e]
    have n0 : (0 : ℝ) ≤ (r * x.natAbs / trigScale.toNat : ℕ) := by positivity
    have x0 : 0 ≤ r * Real.cos (fold.2 * stepAngle k) := n0.trans lower
    refine ⟨?_, ?_, ?_⟩
    · rw [Int.cast_natCast, abs_of_nonneg n0, abs_of_nonneg x0]; exact lower
    · rw [Int.cast_natCast, abs_of_nonneg n0, abs_of_nonneg x0]; exact upper
    · rw [Int.cast_natCast]; exact mul_nonneg n0 x0
  rw [hy, hx]
  cases fold.1 with
  | true => simpa using pos
  | false =>
    have := pos.neg
    simpa [Int.neg_tdiv] using this


/-- Twelve times k steps are a turn. -/
theorem turn_eq {k : ℕ} (h1 : 1 ≤ k) : 12 * (k : ℝ) * stepAngle k = 2 * Real.pi := by
  have : (k : ℝ) ≠ 0 := by positivity
  unfold stepAngle; field_simp; norm_num

/-- The fold of a cosine is the cosine. -/
theorem foldCosine_cos {k m : ℕ} (h1 : 1 ≤ k) (hm : m < 12 * k) :
    Real.cos (m * stepAngle k)
        = (if (foldCosine k m).1 then Real.cos ((foldCosine k m).2 * stepAngle k) else -Real.cos ((foldCosine k m).2 * stepAngle k))
      ∧ (foldCosine k m).2 ≤ 3 * k := by
  have t := turn_eq h1
  unfold foldCosine
  split
  · exact ⟨by simp, by simpa⟩
  · split
    · refine ⟨?_, by simp; omega⟩
      rename_i h
      simp only [Bool.false_eq_true, if_false]
      rw [← Real.cos_pi_sub, Nat.cast_sub h]
      congr 1; push_cast; linarith
    · split
      · rename_i h _
        refine ⟨?_, by simp; omega⟩
        simp only [Bool.false_eq_true, if_false]
        rw [← Real.cos_add_pi, Nat.cast_sub (by omega)]
        congr 1; push_cast; linarith
      · refine ⟨?_, by simp; omega⟩
        simp only [if_true]
        rw [← Real.cos_two_pi_sub, Nat.cast_sub hm.le]
        congr 1; push_cast; linarith

/-- The fold of a sine is the sine. -/
theorem foldSine_sin {k m : ℕ} (h1 : 1 ≤ k) (hm : m < 12 * k) :
    Real.sin (m * stepAngle k)
        = (if (foldSine k m).1 then Real.cos ((foldSine k m).2 * stepAngle k) else -Real.cos ((foldSine k m).2 * stepAngle k))
      ∧ (foldSine k m).2 ≤ 3 * k := by
  have t := turn_eq h1
  unfold foldSine
  split
  · rename_i h
    refine ⟨?_, by simp⟩
    simp only [if_true]
    rw [← Real.cos_pi_div_two_sub, Nat.cast_sub h]
    congr 1; push_cast; linarith
  · split
    · rename_i h _
      refine ⟨?_, by simp; omega⟩
      simp only [if_true]
      rw [← Real.cos_pi_div_two_sub, Nat.cast_sub (by omega), ← Real.cos_neg]
      congr 1; push_cast; linarith
    · split
      · rename_i h
        refine ⟨?_, by simp; omega⟩
        simp only [Bool.false_eq_true, if_false]
        rw [← Real.cos_pi_div_two_sub, Nat.cast_sub h, ← Real.cos_pi_sub, ← Real.cos_neg]
        congr 1; push_cast; linarith
      · refine ⟨?_, by simp; omega⟩
        simp only [Bool.false_eq_true, if_false]
        rw [← Real.cos_pi_div_two_sub, Nat.cast_sub (by omega), ← Real.cos_add_pi, ← Real.cos_neg]
        congr 1; push_cast; linarith

theorem ringFits_all : ((List.range 12).all fun k => ringFits (k + 1)) = true := by decide +kernel

theorem ringFits_of {k : ℕ} (h1 : 1 ≤ k) (h2 : k ≤ 12) : ringFits k = true := by
  have := List.all_eq_true.mp ringFits_all (k - 1) (by simp; omega)
  rwa [show k - 1 + 1 = k by omega] at this

/-- The offsets are radius times cosine and radius times sine of 360° × j / 6k, truncated toward zero (R69). -/
theorem offsets_truncate {ringStep k j : ℕ} (h1 : 1 ≤ k) (h2 : k ≤ 12) (hj : j < 6 * k) (hr : ringStep ≤ 10000) :
    TruncatesTo (k * ringStep * Real.cos (2 * Real.pi * j / (6 * k))) (azimuthOffset ringStep k j)
      ∧ TruncatesTo (k * ringStep * Real.sin (2 * Real.pi * j / (6 * k))) (elevationOffset ringStep k j) := by
  have hk : (k : ℝ) ≠ 0 := by positivity
  have h := List.all_eq_true.mp (ringFits_of h1 h2) j (by simpa using hj)
  rw [Bool.and_eq_true] at h
  have angle : 2 * Real.pi * j / (6 * k) = ((2 * j : ℕ) : ℝ) * stepAngle k := by unfold stepAngle; push_cast; field_simp
  have radius : ((k * ringStep : ℕ) : ℝ) = k * ringStep := by push_cast; rfl
  have small : k * ringStep ≤ 120000 := by nlinarith
  obtain ⟨c, cm⟩ := foldCosine_cos (m := 2 * j) h1 (by omega)
  obtain ⟨d, dm⟩ := foldSine_sin (m := 2 * j) h1 (by omega)
  rw [angle, ← radius]
  exact ⟨truncatesTo_of_turnFits h1 h2 cm h.1 c small, truncatesTo_of_turnFits h1 h2 dm h.2 d small⟩

end Sys2Proof.Machine
end

