-- ==== Sys2Proof/Tests/Slice0.lean ====
section
/-! SUPPORT. Tests: the terms that the check of commands refuses, the manual's worked figures, single steps, and for each statement with hypotheses a
theorem test_…_reached that shows states and operands meeting them, clause by clause, at the ends of the ranges. -/

namespace Sys2Proof.Tests
open Sys2Proof.Machine
set_option Elab.async false

/-! ### Ill-formed terms are refused -/

theorem test_wellFormed_refuses_long_empty_transaction : (Instr.emptyTransaction 8).wellFormed = false := by decide
theorem test_wellFormed_refuses_sound_badframe : (Instr.badframe [0x33#8, 0x00#8, 0xC6#8]).wellFormed = false := by decide +kernel
theorem test_wellFormed_refuses_known_code : (Instr.unknown 0x33#8 []).wellFormed = false := by decide
theorem test_wellFormed_refuses_read_code : (Instr.unknown 0x00#8 []).wellFormed = false := by decide
theorem test_wellFormed_refuses_long_payload : (Instr.unknown 0x0A#8 (List.replicate 31 0#8)).wellFormed = false := by decide
theorem test_wellFormed_refuses_auto_resume_as_hold : (Instr.setHold 1#8 0#8 3#8 1#8).wellFormed = false := by decide
theorem test_wellFormed_refuses_intensity :
    (Instr.detectorFrame
      { number := 0, encoderAzimuth := 0, encoderElevation := 0, spotX := 0, spotY := 0, intensity := 1024, valid := true
        parityAgrees := true }).wellFormed = false := by decide
theorem test_wellFormed_refuses_distance : (Instr.reading 0#8 80000001).wellFormed = false := by decide
theorem test_wellFormed_refuses_fitting_length : (Instr.pendantFrameError (.oversizeLength 12#8)).wellFormed = false := by decide
theorem test_wellFormed_refuses_matching_check :
    (Instr.pendantFrameError (.checkMismatch [0x01#8, 0x01#8, 0x02#8] 0x02#8)).wellFormed = false := by decide
theorem test_wellFormed_refuses_short_body : (Instr.pendantFrameError (.checkMismatch [0x01#8, 0x01#8] 0x02#8)).wellFormed = false := by decide
theorem test_wellFormed_refuses_known_kind : (Instr.pendantFrameError (.unknownKind 0x08#8 [])).wellFormed = false := by decide
theorem test_wellFormed_refuses_pendant_payload :
    ∀ i ∈ [Instr.poll (List.replicate 13 0#8), .claimNew (List.replicate 13 0#8), .find (List.replicate 13 0#8), .letGo (List.replicate 13 0#8),
      .holdOn (List.replicate 13 0#8), .holdOff (List.replicate 13 0#8), .mark (List.replicate 13 0#8), .drop (List.replicate 13 0#8)],
      i.wellFormed = false := by decide
theorem test_wellFormed_admits_the_ends :
    ∀ i ∈ [Instr.emptyTransaction 7, .unknown 0x0A#8 (List.replicate 30 0#8), .setHold 1#8 0#8 2#8 1#8, .reading 0#8 80000000,
      .pendantFrameError (.oversizeLength 13#8), .pendantFrameError (.checkMismatch [0x01#8, 0x01#8, 0x02#8] 0x03#8),
      .pendantFrameError (.unknownKind 0x09#8 []), .poll (List.replicate 12 0#8), .badframe [0x33#8, 0x00#8, 0xC7#8]],
      i.wellFormed = true := by decide +kernel

/-! ### The manual's figures -/

/-- R179: the CRC after the first byte of the example and after the second. -/
theorem test_crc_of_the_example : crc8 [0x33#8] = 0x99#8 ∧ crc8 [0x33#8, 0x00#8] = 0xC6#8 := by decide

/-- R183, R190: a SET of the Parameters group byte by byte, least significant byte first. -/
theorem test_set_parameters_bytes :
    transactionBytes (.setParameters 5#8 1#8 0#8 1400#16 300#16 0#16 6#8 15000#16)
      = some (linkFrame 0x13#8
          [0x05#8, 0x01#8, 0x00#8, 0x78#8, 0x05#8, 0x2C#8, 0x01#8, 0x00#8, 0x00#8, 0x06#8, 0x98#8, 0x3A#8]) := by decide +kernel

/-- R176: bits on SDI, most significant first; a trailing byte of seven clocks is dropped. -/
theorem test_bits_on_sdi :
    sdiBytes [false, false, true, true, false, false, true, true, true, true, true, true, true, true, true] = [0x33#8] := by decide

/-- R178, R190: a code that is not listed with the longest payload; and listed codes with a length that is not. -/
theorem test_unlisted_codes_and_lengths :
    transactionOf (linkFrame 0x7E#8 (List.replicate 30 0#8)) = .unknown 0x7E#8 (List.replicate 30 0#8)
      ∧ transactionOf (linkFrame 0x33#8 [0#8]) = .badframe (linkFrame 0x33#8 [0#8])
      ∧ transactionOf (linkFrame 0x13#8 [1#8, 0#8, 0#8, 0#8, 0#8]) = .badframe (linkFrame 0x13#8 [1#8, 0#8, 0#8, 0#8, 0#8]) := by decide +kernel

/-- 1.3, R27: the ends of the ranges of a parameter set, of a class entry and of a period, and the values next to them. -/
theorem test_ranges_at_their_ends :
    (({ window := 50000, coastTime := 2000, fixInterval := 10000, searchRings := 12, searchLimit := 60000 } : Parameters).Fits
        ∧ ({ window := 0, coastTime := 0, fixInterval := 0, searchRings := 1, searchLimit := 1000 } : Parameters).Fits
        ∧ ¬({ window := 0, coastTime := 0, fixInterval := 0, searchRings := 0, searchLimit := 1000 } : Parameters).Fits
        ∧ ¬({ window := 0, coastTime := 0, fixInterval := 0, searchRings := 1, searchLimit := 999 } : Parameters).Fits)
      ∧ ({ sphereOffset := 50000, captureRadius := 20000, centreRadius := 2000, minIntensity := 1023, rangeAgreement := 5000
           ringStep := 10000 } : ClassEntry).Fits
      ∧ ({ sphereOffset := 0, captureRadius := 200, centreRadius := 20, minIntensity := 1, rangeAgreement := 10, ringStep := 200 } : ClassEntry).Fits
      ∧ PeriodFits 0 ∧ ¬PeriodFits 9 ∧ PeriodFits 10 ∧ PeriodFits 3600 ∧ ¬PeriodFits 3601 := by
  refine ⟨⟨?_, ?_, ?_, ?_⟩, ?_, ?_, ?_, ?_, ?_, ?_, ?_⟩ <;> decide

/-- R192: a byte discarded while hunting, a length above 12, and the frame after it. -/
theorem test_receiver_hunts :
    receiveBytes .hunting [0x55#8, 0xA7#8, 0x0D#8, 0xA7#8, 0x00#8, 0x02#8, 0x02#8]
      = (.hunting, [.pendantFrameError (.oversizeLength 0x0D#8), .claimNew []]) := by decide

/-- 2.3, the example: the carry and the truncation toward zero. -/
theorem test_carry_example :
    carried 1000000 2500 180000 = 1000450 ∧ carried 50000 (-1200) 180000 = 49784 ∧ carried 0 (-1234) 123457 = -152 := by decide

/-- 3.6, the example: the three rates. -/
theorem test_rates_example : rateOf 1000 400000 = 2500 ∧ rateOf (-480) 400000 = -1200 ∧ rateOf 64610 400000 = 161525 := by decide

/-- The search of 3.8's example: centre 200,000 / 1,498,000, two rings, ring step 1,500. -/
def topOfSky : Search :=
  { centre := { azimuth := 200000, elevation := 1498000 }, rings := 2, ringStep := 1500, ring := 1, index := 0, deadline := 0 }

/-- 3.8, the example: the eighteen offsets. -/
theorem test_spiral_offsets :
    (List.range 6).map (fun j => (azimuthOffset 1500 1 j, elevationOffset 1500 1 j))
        = [(1500, 0), (750, 1299), (-750, 1299), (-1500, 0), (-750, -1299), (750, -1299)]
      ∧ (List.range 12).map (fun j => (azimuthOffset 1500 2 j, elevationOffset 1500 2 j))
        = [(3000, 0), (2598, 1500), (1500, 2598), (0, 3000), (-1500, 2598), (-2598, 1500), (-3000, 0), (-2598, -1500), (-1500, -2598),
            (0, -3000), (1500, -2598), (2598, -1500)] := by decide +kernel

/-- 3.8, the example: ring 2, index 1 is followed by index 5, and index 11 exhausts the spiral. -/
theorem test_spiral_skips :
    (Search.advance { topOfSky with ring := 2, index := 1 }).map (fun sr => (sr.ring, sr.index)) = some (2, 5)
      ∧ Search.advance { topOfSky with ring := 2, index := 11 } = none := by decide +kernel

/-- 6.1, the example: the gap 1 − 254 modulo 256. -/
theorem test_gap_example :
    frameGap (some 254#8)
      { number := 1, encoderAzimuth := 0, encoderElevation := 0, spotX := 0, spotY := 0, intensity := 0, valid := true, parityAgrees := true } = 3 := by
  decide

/-- 10.4: the mark counter passes from 255 to 1. -/
theorem test_mark_wraps : nextMark 0#8 = 1#8 ∧ nextMark 255#8 = 1#8 := by decide

/-- R32: the seam of the azimuth, in 2.2's example. -/
theorem test_azimuth_seam : normAzimuth (3140000 - -3140000) = -3185 := by decide

/-! ### The states of the tests -/

/-- A direction. -/
def here : Direction := { azimuth := 100000, elevation := 20000 }

/-- The handle 1/0. -/
def at1 : Handle := { slot := 1, generation := 0 }

/-- The part RUNNING with nothing in it but the HOME record. -/
def up : State :=
  { State.reset with
    arbiter := { State.reset.arbiter with runMode := .running }
    scheduler := { State.reset.scheduler with frozen := false } }

/-- A record put in a slot, with generation 0. -/
def put (s : State) (i : Fin 48) (r : Record) : State := s.setSlot i { generation := 0, record := some r }

/-- A fix. -/
def fixHere : Fix := { direction := here, range := 1000000, stamp := 0, quality := 600, near := none, mark := none, composed := 0 }

/-- A ROVING record with a fix. -/
def rover : Record := { Record.powerOnHome with kind := .roving, autoResume := true, fix := some fixHere }

/-- A NEST with a reference and a revisit period of 10 s. -/
def nest : Record := { Record.powerOnHome with kind := .nest, reference := some { direction := here, range := 1000000 }, period := 10 }

/-- The request for 1/0 of an origin. -/
def asked (o : Origin) : Request := requestOf at1 o 4 none

/-- The context of the pursuit of 1/0 at a stage. -/
def context (o : Origin) (st : Stage) : Context :=
  { target := at1, origin := o, aimDirection := here, stage := st, moveInFlight := true, rangeInFlight := true, lastCaptured := some here
    latestIntensity := some 600, centredCount := 2, readings := 3, heldReading := some 1000000, fixWait := some 0, coastDeadline := some 0
    search := some topOfSky, nearSlot := none, pendingMark := none }

/-- The beam serving a record in slot 1, with a RANGE request of tag 3 outstanding and the latest move tag 9. -/
def serving (o : Origin) (st : Stage) (r : Record) : State :=
  put { up with
      pursuit := some (context o st)
      arbiter := { up.arbiter with grant := some (asked o) }
      ports := { up.ports with outstanding := some { tag := 3, deadline := 0 }, latestMoveTag := some 9 } }
    1 { r with state := .active st }

/-- A frame whose encoder points at here, with a spot and an intensity. -/
def frame (x y : Int) (intensity : Nat) : Frame :=
  { number := 1, encoderAzimuth := 100000, encoderElevation := 20000, spotX := x, spotY := y, intensity := intensity, valid := true
    parityAgrees := true }

theorem serving_pursuing (o : Origin) (st : Stage) (r : Record) :
    Pursuing (serving o st r) (asked o) (context o st) { r with state := .active st } :=
  ⟨rfl, rfl, rfl, rfl, rfl, rfl, rfl, rfl⟩

theorem serving_alone (o : Origin) (st : Stage) (r : Record) : NoOtherRequest (serving o st r) := ⟨⟨rfl, rfl⟩, rfl, rfl⟩

/-! ### Single steps -/

theorem test_reset_queue_is_empty : State.reset.pending = [] := rfl
theorem test_no_word_spells_a_command : State.reset.withFetchWord 8 0x33 = State.reset := rfl
theorem test_first_unpark : step { State.reset with pending := [.unpark] } = .next (answeredBy State.reset .unpark (noPayload .ok) up) := rfl
theorem test_tick : step up = .next { up with time := { up.time with count := 1 } } := rfl
theorem test_create_takes_slot_1 :
    ∃ t, exec (.create 1#8 0#8) up = .next t ∧ t.link.response = some (okPayload [1#8, 0#8]) ∧ (t.recordAt 1).isSome = true := ⟨_, rfl, rfl, rfl⟩
theorem test_short_read_keeps_the_response :
    ∃ t, exec (.readTransaction [0#8]) (answeredBy up .park (noPayload .badFrame) up) = .next t
      ∧ t.link.sdo = [false, false, false, false, false, false, true, true] ++ List.replicate 8 false ∧ t.link.sdoNext = 0x3F#8
      ∧ t.link.ready = true := ⟨_, rfl, by decide +kernel, by decide +kernel, rfl⟩
theorem test_empty_transaction_shifts_out_seven_bits :
    ∃ t, exec (.emptyTransaction 7) (answeredBy up .park (noPayload .badFrame) up) = .next t
      ∧ t.link.sdo = [false, false, false, false, false, false, true] ∧ t.link.response = some (noPayload .badFrame) := ⟨_, rfl, by decide +kernel, rfl⟩
theorem test_low_transaction_shifts_out_zeros :
    ∃ t, exec (.readTransaction [0#8]) (answeredBy State.powerOn .park (noPayload .badFrame) State.powerOn) = .next t
      ∧ t.link.sdo = List.replicate 16 false ∧ t.link.response = some (noPayload .badFrame) := ⟨_, rfl, by decide +kernel, rfl⟩
/-- The example of a slot reused: READ under 40/0 once 40/0 is retired is VACANT while the slot is empty, and STALE once 40/1 is created there (R2, R151). -/
theorem test_read_under_a_retired_handle :
    let retired : State := up.setSlot 40 { generation := 1, record := none }
    let reused : State := up.setSlot 40 { generation := 1, record := some rover }
    exec (.read 40#8 0#8 7#8) retired = .next (answeredBy retired (.read 40#8 0#8 7#8) (noPayload .vacant) retired)
      ∧ exec (.read 40#8 0#8 0#8) reused = .next (answeredBy reused (.read 40#8 0#8 0#8) (noPayload .stale) reused) := ⟨rfl, rfl⟩
theorem test_third_centred_frame_ranges :
    ∃ t, exec (.detectorFrame (frame 150 0 64)) (serving .station .centring rover) = .next t
      ∧ t.ports.driveOut = [.follow { azimuth := 100150, elevation := 20000 }] ∧ t.ports.rangeOut = [0#8] := ⟨_, rfl, rfl, rfl⟩
theorem test_break_coasts :
    ∃ t, exec (.detectorFrame (frame 0 0 63)) (serving .station .locked rover) = .next t
      ∧ (t.recordAt 1).map (fun r => (r.state, r.breaks)) = some (.active .coasting, 1) := ⟨_, rfl, rfl⟩

/-! ### The hypotheses of the statements are met -/

/-- A record in slot 1 of the part RUNNING. -/
def with1 (r : Record) : State := put up 1 r

/-- The request queue holding a request for 1/0 of an origin. -/
def queued (o : Origin) (r : Record) : State :=
  { with1 { r with state := .queued } with arbiter := { up.arbiter with queue := [{ request := asked o, arrival := 0 }] } }

/-- The resume stack holding a request for 1/0. -/
def stacked (r : Record) : State := { with1 { r with state := .suspended } with arbiter := { up.arbiter with stack := [asked .station] } }

/-- A nest like the first, 104,000 / 21,000 and its window parameter as in 2.2's example, in slot 2. -/
def second (window : Nat) : Record :=
  { nest with reference := some { direction := { azimuth := 104000, elevation := 21000 }, range := 1000000 },
              params := { nest.params with window := window } }

/-- A sweep at the slot in question. -/
def sweepAt (next : Fin 48) (remaining : Nat) : Sweep :=
  { condition := { states := 0x3FF#10, kinds := 7#3, owners := 3#2, pendingOnly := false, outcome := none, driftOut := false }
    action := .holdOn, direction := .up, next := next, remaining := remaining, acted := 0, skipped := 0 }

/-- A request of a priority for the record of a slot, at generation 0. -/
def askedFor (i : Fin 48) (o : Origin) (priority : Nat) : Request := requestOf { slot := i, generation := 0 } o priority none

/-- The beam serving a record in slot 1 for an origin at a stage, a QUEUED record in slots 2 and 4, the one in slot 4 the earlier, and a SUSPENDED one in
slot 3. -/
def crowding (o : Origin) (st : Stage) (r : Record) (onStack inQueue : Nat) : State :=
  let s := put (put (put (serving o st r) 2 { second 0 with state := .queued }) 3 { second 0 with state := .suspended }) 4
    { second 0 with state := .queued }
  { s with arbiter := { s.arbiter with
      arrivalCounter := 9
      queue := [{ request := askedFor 2 .station inQueue, arrival := 7 }, { request := askedFor 4 .station inQueue, arrival := 6 }]
      stack := [askedFor 3 .station onStack] } }

/-- The beam serving a LOCKED nest for the station, and those that wait. -/
def crowded (onStack inQueue : Nat) : State := crowding .station .locked nest onStack inQueue

/-- The hypotheses of an end with others waiting: the beam serves slot 1, no revisit is DUE, and the request at the stack top wins. -/
theorem crowding_passes (o : Origin) (st : Stage) (r : Record) :
    Pursuing (crowding o st r 5 5) (asked o) (context o st) { r with state := .active st } ∧ NothingDue (crowding o st r 5 5)
      ∧ Selects (crowding o st r 5 5).arbiter (askedFor 3 .station 5) (crowding o st r 5 5).arbiter.queue []
      ∧ QueueDistinct (crowding o st r 5 5).arbiter.queue ∧ (askedFor 3 .station 5).handle.slot ≠ (context o st).target.slot
      ∧ (crowding o st r 5 5).live (askedFor 3 .station 5).handle = some { second 0 with state := .suspended }
      ∧ ({ second 0 with state := .suspended } : Record).prediction none (crowding o st r 5 5).now = some { azimuth := 104000, elevation := 21000 } := by
  refine ⟨⟨rfl, rfl, rfl, rfl, rfl, rfl, rfl, rfl⟩, ⟨rfl, rfl⟩, Or.inl ⟨rfl, rfl, ?_⟩, ?_, by show (3 : Fin 48) ≠ 1; decide, rfl, rfl⟩
  · show ∀ e ∈ [({ request := askedFor 2 .station 5, arrival := 7 } : QueueEntry), { request := askedFor 4 .station 5, arrival := 6 }],
      e.request.priority ≤ 5
    decide
  · show ([7, 6] : List Nat).Nodup ∧ ([2, 4] : List (Fin 48)).Nodup
    decide

/-- Selection takes the stack top at equal priority, and the earlier of two queue entries above it. -/
theorem crowded_selects :
    Selects (crowded 5 5).arbiter (askedFor 3 .station 5) (crowded 5 5).arbiter.queue []
      ∧ Selects (crowded 4 5).arbiter (askedFor 4 .station 5) [{ request := askedFor 2 .station 5, arrival := 7 }] [askedFor 3 .station 4]
      ∧ QueueDistinct (crowded 5 5).arbiter.queue ∧ QueueDistinct (crowded 4 5).arbiter.queue := by
  refine ⟨Or.inl ⟨rfl, rfl, by decide⟩, Or.inr ⟨rfl, by decide, ?_, _, List.mem_cons_of_mem _ (List.mem_singleton.mpr rfl), rfl, by decide⟩, ?_, ?_⟩
  · intro t ht; cases ht; decide
  · unfold QueueDistinct; decide
  · unfold QueueDistinct; decide

/-- A legal revisit entry for the record in slot 1. -/
def entry1 (due : Time) (st : RevisitStatus) : RevisitEntry := { handle := at1, due := due, status := st }

/-- A state with a revisit list. -/
def listing (s : State) (l : List RevisitEntry) : State := { s with scheduler := { s.scheduler with entries := l } }

/-- The two nests of 2.2's example. -/
def nests (window : Nat) : State := put (with1 nest) 2 (second window)

/-- The pin low; then each deadline reached with the earlier ones of the order absent, down to none; and a sweep in flight. -/
theorem test_idle_reached :
    let s0 : State := { listing (serving .station .locked rover) [entry1 0 .scheduled] with pendant := { up.pendant with silenceDeadline := some 0 } }
    let s1 : State := { s0 with ports := up.ports }
    let s2 : State := { s1 with pursuit := some { context .station .locked with coastDeadline := none } }
    let s3 : State := { s2 with pursuit := some { context .station .locked with coastDeadline := none, search := none } }
    let s4 : State := { s3 with pursuit := some { context .station .locked with coastDeadline := none, search := none, fixWait := none } }
    let s5 : State := listing s4 []
    let s6 : State := { s5 with pendant := up.pendant }
    let s7 : State := { s6 with sweep := { up.sweep with inFlight := some (sweepAt 1 1) } }
    State.powerOn.pending = [] ∧ State.powerOn.resetnLow = true ∧ s0.pending = [] ∧ s0.resetnLow = false
      ∧ [s0, s1, s2, s3, s4, s5, s7, s6].map State.nextEvent
        = [some .rangeTimeout, some .coastDeadlineExpiry, some .searchDeadlineExpiry, some .fixWaitExpiry, some .dueTimeExpiry,
            some .pendantSilenceExpiry, some .sweepStep, none]
      ∧ DeadlineReached s0 0 ∧ s0.ports.outstanding = some { tag := 3, deadline := 0 } ∧ s1.ports.outstanding = none
      ∧ s1.pursuit.bind (·.coastDeadline) = some 0 ∧ s2.pursuit.bind (·.coastDeadline) = none ∧ (s2.pursuit.bind (·.search)).map (·.deadline) = some 0
      ∧ s3.pursuit.bind (·.search) = none ∧ s3.pursuit.bind (·.fixWait) = some 0 ∧ s4.pursuit.bind (·.fixWait) = none
      ∧ s4.scheduler.entries = [entry1 0 .scheduled] ∧ s5.scheduler.entries = [] ∧ s5.pendant.silenceDeadline = some 0
      ∧ s6.pendant.silenceDeadline = none ∧ s6.sweep.inFlight = none ∧ s7.sweep.inFlight = some (sweepAt 1 1) := by
  (repeat' apply And.intro) <;> first | rfl | (unfold DeadlineReached; decide +kernel)

theorem test_resetnPin_reached :
    State.powerOn.resetnLow = true ∧ Instr.park ≠ .resetnLow ∧ Instr.park ≠ .resetnRise ∧ clocksOf .park = 24 ∧ clocksOf .rangeTimeout = 0
      ∧ up.resetnLow = false := by
  (repeat' apply And.intro) <;> first | rfl | decide

/-- A response of three bytes is read whole by three clocked bytes and not by two; no response; and the first and the last bit of an empty transaction. -/
theorem test_readFetchesResponse_reached :
    (answeredBy up .park (noPayload .ok) up).link.response = some (noPayload .ok) ∧ (noPayload .ok).bytes.length ≤ [0#8, 0#8].length + 1
      ∧ [0#8].length + 1 < (noPayload .ok).bytes.length ∧ up.link.response = none ∧ up.resetnLow = false ∧ 2 ≤ [0#8, 0#8].length
      ∧ (0 < 7 ∧ 6 < 7 ∧ 7 < 8 : Prop) ∧ transactionBytes .park = some [0x33#8, 0x00#8, 0xC6#8] := by
  exact ⟨rfl, by decide +kernel, by decide +kernel, rfl, rfl, by decide, by decide, by decide +kernel⟩

theorem test_commandsReadBack_reached :
    Instr.park.wellFormed = true ∧ transactionBytes .park = some [0x33#8, 0x00#8, 0xC6#8] ∧ ∀ n, Instr.park ≠ .emptyTransaction n :=
  ⟨by decide, by decide +kernel, fun _ => by simp⟩

theorem test_pendantFramesReadBack_reached :
    pendantKindOf (.poll (List.replicate 12 0#8)) = some (1#8, List.replicate 12 0#8) ∧ (List.replicate 12 0#8 : List Byte).length ≤ 12
      ∧ (0#8 : Byte) ≠ pendantCheck (BitVec.ofNat 8 12 :: 1#8 :: List.replicate 12 0#8) := by
  exact ⟨rfl, by decide +kernel, by decide +kernel⟩

/-- Slot 48; a VACANT slot; a stale generation; the record; a PENDANT-owned one; the last defined codes and the first undefined; and unfit selectors. -/
theorem test_handleChecks_reached :
    (with1 nest).resetnLow = false ∧ (with1 nest).scheduler.passWanted = false ∧ 48 ≤ (48#8 : Byte).toNat
      ∧ (with1 nest).recordAt 47 = none ∧ (47 : Fin 48).val = (47#8 : Byte).toNat
      ∧ (with1 nest).recordAt 1 = some nest ∧ ((with1 nest).slotAt 1).generation ≠ 1#8 ∧ ((with1 nest).slotAt 1).generation = 0#8
      ∧ (with1 nest).lookup 48#8 0#8 = .error .range ∧ (7#8 : Byte).toNat ≤ 7 ∧ 7 < (8#8 : Byte).toNat ∧ (2#8 : Byte).toNat ≤ 2 ∧ 2 < (3#8 : Byte).toNat
      ∧ (1#8 : Byte) ≠ 0 ∧ (0#8 : Byte) ≠ 1 ∧ (3#8 : Byte) ≠ 2
      ∧ (with1 { nest with owner := .pendant }).lookup 1#8 0#8 = .ok (at1, { nest with owner := .pendant }) := by
  (repeat' apply And.intro) <;> first | rfl | decide +kernel

/-- Kind 3 and class 8; kinds 1 and 2 with class 7; a full window of one slot; and the lowest VACANT slot. -/
theorem test_create_reached :
    2 < (3#8 : Byte).toNat ∧ 7 < (8#8 : Byte).toNat ∧ (7 : Fin 8).val = (7#8 : Byte).toNat
      ∧ (∀ i, ({ base := 1, length := 1 } : AllocWindow).contains i = true → (with1 nest).recordAt i ≠ none)
      ∧ up.table.stationWindow.contains 1 = true ∧ up.recordAt 1 = none
      ∧ (∀ j, j < 1 → up.table.stationWindow.contains j = true → up.recordAt j ≠ none) := by
  (repeat' apply And.intro) <;> first | rfl | decide +kernel

/-- HOME's slot; a DORMANT, a QUEUED and a SUSPENDED record; and a granted one, with nothing waiting and with the winner of a selection. -/
theorem test_retire_reached :
    up.lookupOwned 0#8 0#8 = .ok ({ slot := 0, generation := 0 }, Record.powerOnHome) ∧ up.scheduler.passWanted = false
      ∧ (with1 nest).lookupOwned 1#8 0#8 = .ok (at1, nest) ∧ at1.slot ≠ 0 ∧ nest.state = .dormant
      ∧ (queued .station nest).lookupOwned 1#8 0#8 = .ok (at1, { nest with state := .queued }) ∧ NothingDue (queued .station nest)
      ∧ (stacked nest).lookupOwned 1#8 0#8 = .ok (at1, { nest with state := .suspended }) ∧ NothingDue (stacked nest)
      ∧ (serving .station .locked nest).lookupOwned 1#8 0#8 = .ok (at1, { nest with state := .active .locked })
      ∧ NoOtherRequest (serving .station .locked nest) ∧ (serving .station .locked nest).arbiter.grant = some (asked .station)
      ∧ (∀ p, (crowded p 5).lookupOwned 1#8 0#8 = .ok (at1, { nest with state := .active .locked }) ∧ NothingDue (crowded p 5)
          ∧ (crowded p 5).arbiter.runMode = .running ∧ (crowded p 5).pursuit = some (context .station .locked)
          ∧ (crowded p 5).live (askedFor 3 .station 5).handle = some { second 0 with state := .suspended }
          ∧ (crowded p 5).live (askedFor 4 .station 5).handle = some { second 0 with state := .queued })
      ∧ ({ second 0 with state := .queued } : Record).prediction none up.now = some { azimuth := 104000, elevation := 21000 }
      ∧ (askedFor 3 .station 5).handle.slot ≠ at1.slot ∧ (askedFor 4 .station 5).handle.slot ≠ at1.slot := by
  refine ⟨rfl, rfl, rfl, by decide, rfl, rfl, ⟨rfl, rfl⟩, rfl, ⟨rfl, rfl⟩, rfl, serving_alone _ _ _, rfl,
    fun p => ⟨rfl, ⟨rfl, rfl⟩, rfl, rfl, rfl, rfl⟩, rfl, by decide, by decide⟩

/-- Each group code, and the first undefined one; a record with a fix, a motion estimate and an entry, and one without; a reference and a deviation. -/
theorem test_read_reached :
    7 < (8#8 : Byte).toNat
      ∧ [0#8, 1#8, 2#8, 3#8, 4#8, 5#8, 6#8, 7#8].map groupOf = [some .identity, some .fix, some .motion, some .reference, some .parameters, some .revisit,
          some .statistics, some .status]
      ∧ (with1 rover).lookup 1#8 0#8 = .ok (at1, rover) ∧ rover.fix = some fixHere ∧ rover.motion = none ∧ rover.reference = none
      ∧ (let r : Record := { rover with motion := some { azimuthRate := 1, elevationRate := -1, rangeRate := 0 } }
         (with1 r).lookup 1#8 0#8 = .ok (at1, r) ∧ r.motion.isSome = true)
      ∧ (let r : Record := { nest with lastDeviation := some { azimuth := 1, elevation := -1, range := 0 } }
         (with1 r).lookup 1#8 0#8 = .ok (at1, r) ∧ r.reference.isSome = true ∧ r.lastDeviation.isSome = true)
      ∧ (with1 nest).lookup 1#8 0#8 = .ok (at1, nest) ∧ nest.fix = none ∧ nest.lastDeviation = none
      ∧ (with1 nest).entryAt 1 = none ∧ (listing (with1 nest) [entry1 0 .due]).entryAt 1 = some (entry1 0 .due) := by
  (repeat' apply And.intro) <;> first | rfl | decide +kernel

/-- Window 50,001 is out of range; 50,000 is in range; the overlap at 1,500 and none at 1,400 (2.2's example). -/
theorem test_setParameters_reached :
    let t (w : Nat) := (nests 0).withRecord at1 { nest with params := { nest.params with window := w } }
    let moved (w : Nat) := (nests 1400).withRecord { slot := 2, generation := 0 } (second w)
    (nests 0).lookupOwned 1#8 0#8 = .ok (at1, nest) ∧ ¬({ nest.params with window := 50001 } : Parameters).Fits
      ∧ ({ nest.params with window := 50000 } : Parameters).Fits ∧ nest.params.Fits
      ∧ nest.position.isSome = true ∧ windowTestFails (nests 1400) (moved 1500) 2 = true ∧ windowTestFails (nests 1400) (moved 1399) 2 = false
      ∧ windowTestFails (nests 0) (t 1) 1 = false ∧ 1 < (2#8 : Byte).toNat
      ∧ (serving .station .locked nest).lookupOwned 1#8 0#8 = .ok (at1, { nest with state := .active .locked }) := by
  (repeat' apply And.intro) <;> first | rfl | decide +kernel

/-- KIND of a rover, BUSY of an active record, the ends of the range of a tolerance, OVERLAP and OK. -/
theorem test_setReference_reached :
    rover.kind = .roving ∧ nest.kind ≠ .roving ∧ nest.state = .dormant ∧ ¬(50001#16 : BitVec 16).toNat ≤ 50000 ∧ (50000#16 : BitVec 16).toNat ≤ 50000
      ∧ (with1 rover).lookupOwned 1#8 0#8 = .ok (at1, rover) ∧ (with1 nest).lookupOwned 1#8 0#8 = .ok (at1, nest)
      ∧ windowTestFails (put (with1 nest) 2 { second 1500 with reference := none }) (nests 1500) 2 = true
      ∧ windowTestFails (put (with1 nest) 2 { second 1400 with reference := none }) (nests 1400) 2 = false := by
  (repeat' apply And.intro) <;> first | rfl | decide +kernel

theorem test_changeKind_reached :
    (with1 nest).lookupOwned 1#8 0#8 = .ok (at1, nest) ∧ kindOf 2#8 = some .nest ∧ kindOf 1#8 = some .roving ∧ kindOf 0#8 = some .home
      ∧ at1.slot ≠ 0 ∧ nest.kind = .nest ∧ nest.state = .dormant ∧ (with1 rover).lookupOwned 1#8 0#8 = .ok (at1, rover)
      ∧ rover.kind ≠ .nest ∧ rover.fix.isSome = true
      ∧ windowTestFails (put (with1 rover) 2 (second 1500)) (put (with1 { rover with kind := .nest, motion := none }) 2 (second 1500)) 1 = true
      ∧ windowTestFails (with1 rover) (with1 { rover with kind := .nest, motion := none }) 1 = false := by
  (repeat' apply And.intro) <;> first | rfl | decide +kernel

theorem test_take_reached :
    nest.owner = .station ∧ (with1 nest).lookup 1#8 0#8 = .ok (at1, nest) ∧ ({ rover with owner := .pendant } : Record).owner ≠ .station
      ∧ (put up 40 { rover with owner := .pendant }).lookup 40#8 0#8 = .ok ({ slot := 40, generation := 0 }, { rover with owner := .pendant })
      ∧ (put up 40 rover).offsetSlot 0#8 = some 40 := by
  (repeat' apply And.intro) <;> first | rfl | decide +kernel

/-- HOME's slot; slot 39 just outside the window and slots 40 and 47 at its ends; both owners. -/
theorem test_give_reached :
    up.lookup 0#8 0#8 = .ok ({ slot := 0, generation := 0 }, Record.powerOnHome)
      ∧ (put up 39 rover).lookup 39#8 0#8 = .ok ({ slot := 39, generation := 0 }, rover) ∧ ¬(40 ≤ (39 : Fin 48).val)
      ∧ (put up 40 rover).lookup 40#8 0#8 = .ok ({ slot := 40, generation := 0 }, rover) ∧ 40 ≤ (40 : Fin 48).val
      ∧ (put up 47 { rover with owner := .pendant }).lookup 47#8 0#8
          = .ok ({ slot := 47, generation := 0 }, { rover with owner := .pendant }) ∧ (47 : Fin 48).val < 40 + 8 := by
  (repeat' apply And.intro) <;> first | rfl | decide +kernel

/-- Selector 3; a window that ends at slot 48 and one that ends at 47; the windows held, and others; and a PENDANT entry in the queue whose record, in slot
47, a pendant window of 40 to 46 leaves outside. -/
theorem test_windows_reached :
    let q : QueueEntry := { request := askedFor 47 .pendant 5, arrival := 0 }
    let r : Record := { rover with owner := .pendant, state := .queued }
    let s : State := { put up 47 r with arbiter := { up.arbiter with queue := [q] } }
    3 ≤ (3#8 : Byte).toNat ∧ ¬((2#8 : Byte).toNat + (47#8 : Byte).toNat ≤ 48) ∧ (1#8 : Byte).toNat + (47#8 : Byte).toNat ≤ 48
      ∧ ({ base := (1#8 : Byte).toNat, length := (47#8 : Byte).toNat } : AllocWindow) = up.table.stationWindow
      ∧ ({ base := (1#8 : Byte).toNat, length := (46#8 : Byte).toNat } : AllocWindow) ≠ up.table.stationWindow
      ∧ ({ base := (40#8 : Byte).toNat, length := (8#8 : Byte).toNat } : AllocWindow) = up.table.pendantWindow
      ∧ ({ base := (40#8 : Byte).toNat, length := (7#8 : Byte).toNat } : AllocWindow) ≠ up.table.pendantWindow
      ∧ s.resetnLow = false ∧ NothingDue s ∧ s.recordAt 47 = some r ∧ q ∈ s.arbiter.queue ∧ q.request.handle = s.handleOf 47
      ∧ ¬((47 : Fin 48).val < (40#8 : Byte).toNat + (7#8 : Byte).toNat) ∧ s.recordAt 0 = some Record.powerOnHome := by
  refine ⟨by decide, by decide, by decide, by decide, by decide, by decide, by decide, rfl, ⟨rfl, rfl⟩, rfl, List.mem_singleton.mpr rfl, rfl,
    by decide, rfl⟩

theorem test_classEntry_reached :
    (7 : Fin 8).val = (7#8 : Byte).toNat ∧ 7 < (8#8 : Byte).toNat
      ∧ ¬({ ClassEntry.powerOn with captureRadius := 199 } : ClassEntry).Fits
      ∧ ({ ClassEntry.powerOn with captureRadius := 200 } : ClassEntry).Fits
      ∧ (serving .station .locked nest).recordAt 1 = some { nest with state := .active .locked } ∧ nest.cls = 0
      ∧ (nests 1400).recordAt 1 = some nest ∧ nest.params.window = 0
      ∧ pairFails (nests 1400) { nests 1400 with classes := up.classes.set 0 { ClassEntry.powerOn with captureRadius := 2700 } } 1 2 = true
      ∧ (∀ j r st, up.recordAt j = some r → r.cls = 1 → r.state ≠ .active st) := by
  (repeat' apply And.intro) <;> first | rfl | decide +kernel | skip
  intro j r st hr hc hs
  have h : (up.recordAt j).all (fun x => decide (x.state = .dormant)) = true := by
    have : ∀ k : Fin 48, (up.recordAt k).all (fun x => decide (x.state = .dormant)) = true := by decide +kernel
    exact this j
  rw [hr] at h
  simp [hs] at h

theorem test_changeClass_reached :
    (serving .station .locked nest).lookupOwned 1#8 0#8 = .ok (at1, { nest with state := .active .locked }) ∧ 7 < (8#8 : Byte).toNat
      ∧ (7 : Fin 8).val = (7#8 : Byte).toNat ∧ (with1 nest).lookupOwned 1#8 0#8 = .ok (at1, nest)
      ∧ windowTestFails (nests 1400) ((nests 1400).withRecord at1 { nest with cls := 7 }) 1 = false := by
  (repeat' apply And.intro) <;> first | rfl | decide +kernel

/-- With neither flag, and with an explicit priority 6 and an aim at the ends of the limits; and the four sources of a prediction. -/
theorem test_pursueGrants_reached :
    (with1 nest).resetnLow = false ∧ (with1 nest).arbiter.runMode = .running ∧ NothingDue (with1 nest)
      ∧ (with1 nest).lookup 1#8 0#8 = .ok (at1, nest) ∧ nest.state = .dormant ∧ (with1 nest).arbiter.grant = none
      ∧ (with1 nest).arbiter.queue = [] ∧ (with1 nest).arbiter.stack = [] ∧ (with1 nest).arbiter.arrivalCounter < 65535
      ∧ (3#8 : Byte).toNat < 4 ∧ (6#8 : Byte).toNat ≤ 6 ∧ ({ azimuth := 3141592, elevation := -1500000 } : Direction).Fits
      ∧ nest.prediction none (with1 nest).now = some here
      ∧ nest.prediction (some { azimuth := 3141592, elevation := -1500000 }) (with1 nest).now = some here
      ∧ nest.StandsAt here ∧ ({ nest with reference := none, fix := some fixHere } : Record).StandsAt here
      ∧ (∀ d, ¬({ nest with reference := none } : Record).StandsAt d)
      ∧ rover.kind = .roving ∧ rover.fix = some fixHere ∧ rover.motion = none
      ∧ ({ rover with motion := some { azimuthRate := 2500, elevationRate := -1200, rangeRate := 0 } } : Record).prediction none 180000#48
        = some { azimuth := 100450, elevation := 19784 } := by
  refine ⟨rfl, rfl, ⟨rfl, rfl⟩, rfl, rfl, rfl, rfl, rfl, by decide, by decide, by decide, by decide, rfl, rfl, ⟨by decide, Or.inl ⟨_, rfl, rfl⟩⟩,
    ⟨by decide, Or.inr ⟨rfl, _, rfl, rfl⟩⟩, ?_, rfl, rfl, rfl, by decide +kernel⟩
  rintro d ⟨_, ⟨x, hx, _⟩ | ⟨_, x, hx, _⟩⟩ <;> cases hx

/-- PARKED; a priority of 7; and each state of the record: active; DORMANT without a prediction, with a full queue, and below the grant, the arrival counter
free and at its end; SUSPENDED; QUEUED below the grant. -/
theorem test_pursueMerges_reached :
    let full : State := { with1 nest with arbiter := { up.arbiter with queue := List.replicate 12 { request := asked .station, arrival := 0 } } }
    let below : State := { queued .station nest with arbiter := { (queued .station nest).arbiter with grant := some { asked .station with priority := 6 } } }
    let free (n : Nat) : State := { put (crowded 4 4) 5 nest with arbiter := { (crowded 4 4).arbiter with arrivalCounter := n } }
    State.reset.arbiter.runMode = .parked ∧ State.reset.lookup 0#8 0#8 = .ok ({ slot := 0, generation := 0 }, Record.powerOnHome)
      ∧ ¬((7#8 : Byte).toNat ≤ 6) ∧ (serving .station .locked nest).lookup 1#8 0#8 = .ok (at1, { nest with state := .active .locked })
      ∧ up.lookup 0#8 0#8 = .ok ({ slot := 0, generation := 0 }, Record.powerOnHome) ∧ Record.powerOnHome.prediction none up.now = none
      ∧ full.lookup 1#8 0#8 = .ok (at1, nest) ∧ nest.prediction none full.now ≠ none ∧ 12 ≤ full.arbiter.queue.length
      ∧ (∀ n, (free n).lookup 5#8 0#8 = .ok ({ slot := 5, generation := 0 }, nest) ∧ (free n).arbiter.queue.length < 12
          ∧ (free n).arbiter.grant = some (asked .station) ∧ (asked .station).priority = 4
          ∧ (∀ e ∈ (free n).arbiter.queue, e.request.priority ≤ 4) ∧ (free n).arbiter.arrivalCounter = n ∧ (free n).resetnLow = false
          ∧ (free n).scheduler.passWanted = false ∧ (free n).arbiter.runMode = .running)
      ∧ (stacked nest).lookup 1#8 0#8 = .ok (at1, { nest with state := .suspended })
      ∧ below.lookup 1#8 0#8 = .ok (at1, { nest with state := .queued })
      ∧ ∀ e ∈ below.arbiter.queue, max e.request.priority (6#8 : Byte).toNat ≤ 6 := by
  refine ⟨rfl, rfl, by decide, rfl, rfl, rfl, rfl, by decide, by decide +kernel, fun n => ⟨rfl, by show 2 < 12; decide, rfl, rfl,
    (by decide : ∀ e ∈ (crowded 4 4).arbiter.queue, e.request.priority ≤ 4), rfl, rfl, rfl, rfl⟩, rfl,
    rfl, by decide +kernel⟩

/-- The grant at priority 4: a request at 5 alone, for each origin and auto-resume setting of the grant; an entry of slot 4 at priority 4 raised to 6 by a
merge, above another entry; a new request at 6 above two entries; one at 3 that leaves an earlier entry the winner; and a stack of three and of four. -/
theorem test_preemption_reached :
    let s (o : Origin) (r : Record) := put (serving o .locked r) 2 (second 0)
    let deep (n : Nat) : State :=
      let t := put (put (serving .station .locked rover) 2 (second 0)) 5 { second 0 with state := .suspended }
      { t with arbiter := { t.arbiter with stack := List.replicate n (asked .station) ++ [askedFor 5 .station 4] } }
    (∀ o, ∀ r ∈ [rover, { rover with autoResume := false }],
      NothingDue (s o r) ∧ (s o r).lookup 2#8 0#8 = .ok ({ slot := 2, generation := 0 }, second 0) ∧ (second 0).state = .dormant
        ∧ (s o r).arbiter.grant = some (asked o) ∧ (s o r).live (asked o).handle = some { r with state := .active .locked }
        ∧ (s o r).pursuit = some (context o .locked) ∧ (context o .locked).target = (asked o).handle ∧ (s o r).arbiter.queue = []
        ∧ (asked o).priority < (5#8 : Byte).toNat ∧ (6#8 : Byte).toNat ≤ 6 ∧ (s o r).arbiter.stack.length < 4
        ∧ (second 0).prediction none (s o r).now = some { azimuth := 104000, elevation := 21000 })
      ∧ ((deep 2).arbiter.stack.length = 3 ∧ (deep 3).arbiter.stack.length = 4 ∧ (deep 3).arbiter.stack[3]? = some (askedFor 5 .station 4)
          ∧ (deep 3).live (askedFor 5 .station 4).handle = some { second 0 with state := .suspended } ∧ (5 : Fin 48) ≠ 2 ∧ (5 : Fin 48) ≠ 1)
      ∧ (let merged : List QueueEntry :=
            [{ request := askedFor 2 .station 4, arrival := 7 }, { request := askedFor 4 .station (max 4 6), arrival := 6 }]
         (crowded 4 4).lookup 4#8 0#8 = .ok ({ slot := 4, generation := 0 }, { second 0 with state := .queued })
           ∧ merged = (crowded 4 4).arbiter.queue.map (fun e => if e.request.handle.slot = (4 : Fin 48) then
                { e with request := { e.request with priority := max e.request.priority (6#8 : Byte).toNat } } else e)
           ∧ QueueDistinct merged ∧ ∀ x ∈ merged, x.request.priority < 6 ∨ x.request.priority = 6 ∧ 6 ≤ x.arrival)
      ∧ (let waiting (p : Nat) : List QueueEntry := (crowded 4 5).arbiter.queue ++ [{ request := askedFor 5 .station p, arrival := 9 }]
         QueueDistinct (waiting 6) ∧ QueueDistinct (waiting 3) ∧ (∀ x ∈ waiting 6, x.request.priority < 6 ∨ x.request.priority = 6 ∧ 9 ≤ x.arrival)
           ∧ ∀ x ∈ waiting 3, x.request.priority < 5 ∨ x.request.priority = 5 ∧ 6 ≤ x.arrival) := by
  intro s deep
  refine ⟨?_, ⟨rfl, rfl, rfl, rfl, by decide, by decide⟩, ⟨rfl, by decide, by unfold QueueDistinct; decide, by decide⟩,
    ⟨by unfold QueueDistinct; decide, by unfold QueueDistinct; decide, by decide, by decide⟩⟩
  intro o r hr
  have : r = rover ∨ r = { rover with autoResume := false } := by simpa using hr
  rcases this with rfl | rfl <;> cases o <;> (repeat' apply And.intro) <;> first | rfl | decide +kernel

/-- DORMANT, QUEUED and SUSPENDED; a REVISIT request queued and granted with its entry OFFERED; a granted record with nothing waiting, with the winner of a
selection, and with a request that has no prediction. -/
theorem test_release_reached :
    let lostNext : State := { put (serving .station .locked nest) 2 { rover with fix := none, state := .queued } with
      arbiter := { (serving .station .locked nest).arbiter with queue := [{ request := askedFor 2 .station 5, arrival := 0 }] } }
    (with1 nest).lookup 1#8 0#8 = .ok (at1, nest) ∧ NothingDue (with1 nest)
      ∧ (queued .station nest).lookup 1#8 0#8 = .ok (at1, { nest with state := .queued }) ∧ NothingDue (queued .station nest)
      ∧ (queued .station nest).queuedAt 1 = some { request := asked .station, arrival := 0 }
      ∧ (stacked nest).lookup 1#8 0#8 = .ok (at1, { nest with state := .suspended }) ∧ (stacked nest).stackedAt 1 = some (asked .station)
      ∧ (serving .pendant .locked nest).lookup 1#8 0#8 = .ok (at1, { nest with state := .active .locked })
      ∧ NothingDue (serving .pendant .locked nest) ∧ (serving .pendant .locked nest).arbiter.queue = []
      ∧ (∀ s ∈ [queued .revisit nest, serving .revisit .locked nest], NothingDue (listing s [entry1 0 .offered])
          ∧ (listing s [entry1 0 .offered]).entryAt 1 = some (entry1 0 .offered))
      ∧ (∀ p, (crowded p 5).lookup 1#8 0#8 = .ok (at1, { nest with state := .active .locked }) ∧ NothingDue (crowded p 5))
      ∧ lostNext.lookup 1#8 0#8 = .ok (at1, { nest with state := .active .locked }) ∧ NothingDue lostNext
      ∧ Selects lostNext.arbiter (askedFor 2 .station 5) [] [] ∧ QueueDistinct lostNext.arbiter.queue
      ∧ lostNext.live (askedFor 2 .station 5).handle = some { rover with fix := none, state := .queued }
      ∧ ({ rover with fix := none, state := .queued } : Record).prediction none lostNext.now = none := by
  refine ⟨rfl, ⟨rfl, rfl⟩, rfl, ⟨rfl, rfl⟩, rfl, rfl, rfl, rfl, ⟨rfl, rfl⟩, rfl, ?_, fun p => ⟨rfl, ⟨rfl, rfl⟩⟩, rfl, ⟨rfl, rfl⟩,
    Or.inr ⟨rfl, by decide, (fun t h => by cases h), _, List.mem_singleton.mpr rfl, rfl, by decide⟩, by unfold QueueDistinct; decide, rfl, rfl⟩
  intro s hs
  have : s = queued .revisit nest ∨ s = serving .revisit .locked nest := by simpa using hs
  rcases this with rfl | rfl <;> exact ⟨⟨rfl, rfl⟩, rfl⟩

theorem test_priority_reached :
    originOf 2#8 = some .revisit ∧ originOf 3#8 = some .internal ∧ 3 < (4#8 : Byte).toNat ∧ 3 ≤ (3#8 : Byte).toNat ∧ 6 < (7#8 : Byte).toNat
      ∧ (6#8 : Byte).toNat ≤ 6 ∧ (3#8 : Byte).toNat = up.arbiter.priorities.value .revisit := by
  (repeat' apply And.intro) <;> first | rfl | decide +kernel

/-- PARKED; RUNNING with a grant, without one, with a HOME reference and without; and a list of two entries, one of them OFFERED. -/
theorem test_park_reached :
    State.reset.arbiter.runMode = .parked ∧ (serving .station .locked nest).arbiter.runMode = .running
      ∧ (serving .station .locked nest).pursuit.isSome = (serving .station .locked nest).arbiter.grant.isSome
      ∧ up.pursuit.isSome = up.arbiter.grant.isSome ∧ (up.recordAt 0).bind (·.reference) = none
      ∧ ((put up 0 { nest with kind := .home }).recordAt 0).bind (·.reference) = some { direction := here, range := 1000000 }
      ∧ ((listing up [entry1 0 .offered, { entry1 5 .scheduled with handle := { slot := 2, generation := 0 } }]).scheduler.entries.map
          (·.handle.slot)).Nodup := by
  (repeat' apply And.intro) <;> first | rfl | decide +kernel

/-- Three DUE entries: slot 1's nest has a position, slot 2's has none, and slot 3's is SUSPENDED. -/
def overdue (s : State) : State :=
  let e (i : Fin 48) (due : Time) : RevisitEntry := { handle := { slot := i, generation := 0 }, due := due, status := .due }
  listing (put (put (put s 1 nest) 2 { nest with reference := none }) 3 { nest with state := .suspended }) [e 1 0, e 2 0, e 3 0]

/-- UNPARK's pass over overdue entries, with a HOME reference and without: slot 1's record is queued under the home check, or granted at once; slot 2's is
missed; slot 3's is passed over. -/
theorem test_unpark_pass_reached :
    let home : Record := { nest with kind := .home }
    (∀ s ∈ [overdue State.reset, overdue (put State.reset 0 home)], s.resetnLow = false ∧ s.scheduler.passWanted = false ∧ s.arbiter.runMode = .parked
        ∧ s.arbiter.grant = none ∧ s.arbiter.queue = [] ∧ s.arbiter.stack = [] ∧ s.arbiter.arrivalCounter < 65500 ∧ s.arbiter.priorities.revisit ≤ 6
        ∧ (s.scheduler.entries.map (·.handle.slot)).Nodup ∧ (dueEntries s).length = 3)
      ∧ (∃ t, exec .unpark (overdue (put State.reset 0 home)) = .next t ∧ t.arbiter.grant = some (requestOf { slot := 0, generation := 0 } .internal 7 none)
          ∧ t.arbiter.queue = [{ request := askedFor 1 .revisit 3, arrival := 1 }] ∧ (t.recordAt 2).map (·.missCount) = some 1
          ∧ t.recordAt 3 = some { nest with state := .suspended })
      ∧ ∃ t, exec .unpark (overdue State.reset) = .next t ∧ t.arbiter.grant = some (askedFor 1 .revisit 3) ∧ t.arbiter.queue = []
          ∧ t.scheduler.entries.map (fun e => (e.handle.slot, e.due, e.status)) = [(1, 0, .offered), (3, 0, .due), (2, 10000000, .scheduled)] := by
  refine ⟨?_, ⟨_, rfl, by decide +kernel, by decide +kernel, by decide +kernel, by decide +kernel⟩,
    ⟨_, rfl, by decide +kernel, by decide +kernel, by decide +kernel⟩⟩
  intro s hs
  have : s = overdue State.reset ∨ s = overdue (put State.reset 0 { nest with kind := .home }) := by simpa using hs
  rcases this with rfl | rfl <;> (repeat' apply And.intro) <;> first | rfl | decide +kernel

theorem test_unpark_reached :
    NothingDue State.reset ∧ State.reset.arbiter.runMode = .parked ∧ State.reset.arbiter.grant = none
      ∧ State.reset.recordAt 0 = some Record.powerOnHome ∧ Record.powerOnHome.kind = .home ∧ Record.powerOnHome.reference = none
      ∧ NothingDue (put State.reset 0 { nest with kind := .home })
      ∧ (put State.reset 0 { nest with kind := .home }).recordAt 0 = some { nest with kind := .home } ∧ up.arbiter.runMode = .running := by
  (repeat' apply And.intro) <;> rfl

/-- Positions 31 and 32, of a list of one entry; a queue of two entries; a range request outstanding whose deadline has been reached, and one µs ahead; the
sweep unit in flight, and idle with and without a last result. -/
theorem test_observers_reached :
    let s : State := listing (with1 nest) [entry1 0 .scheduled]
    let t : State := serving .station .locked rover
    31 < (32#8 : Byte).toNat ∧ (31#8 : Byte).toNat ≤ 31 ∧ s.scheduler.entries.length ≤ (31#8 : Byte).toNat
      ∧ s.scheduler.entries[(0#8 : Byte).toNat]? = some (entry1 0 .scheduled) ∧ s.live (entry1 0 .scheduled).handle = some nest
      ∧ QueueDistinct (crowded 4 5).arbiter.queue ∧ (crowded 4 5).arbiter.queue.length = 2
      ∧ t.arbiter.grant = some (asked .station) ∧ t.live (asked .station).handle = some { rover with state := .active .locked } ∧ up.arbiter.grant = none
      ∧ t.ports.outstanding = some { tag := 3, deadline := 0 } ∧ DeadlineReached t 0 ∧ ¬DeadlineReached t 1 ∧ up.ports.outstanding = none
      ∧ up.sweep.inFlight = none ∧ up.sweep.lastResult = none := by
  refine ⟨by decide, by decide, by decide, rfl, rfl, crowded_selects.2.2.2, rfl, rfl, rfl, rfl, rfl, ?_, ?_, rfl, rfl, rfl⟩
  · show (0#48 - 0#48).toNat < 2 ^ 47; decide +kernel
  · show ¬((0#48 - 1#48).toNat < 2 ^ 47); decide +kernel

/-- Start 48, count 49, direction 2; the match at the start; the count used up at the last slot of the table; the table run out. -/
theorem test_scan_reached :
    let nestsOnly : ConditionBytes := { states := 0x3FE#16, kinds := 4#8, owners := 3#8, qualifiers := 0#8, outcome := 0#8 }
    47 < (48#8 : Byte).toNat ∧ 48 < (49#8 : Byte).toNat ∧ 1 < (2#8 : Byte).toNat ∧ (48#8 : Byte).toNat ≤ 48
      ∧ conditionOf { nestsOnly with states := 0x400#16 } = none
      ∧ ((conditionOf nestsOnly).map fun c => (with1 nest).slotMatches c 1) = some true
      ∧ ((conditionOf nestsOnly).map fun c => (with1 nest).slotMatches c 47) = some false
      ∧ (1#8 : Byte).toNat ≤ 48 - (47 : Fin 48).val ∧ 48 - (47 : Fin 48).val < (2#8 : Byte).toNat := by
  (repeat' apply And.intro) <;> first | rfl | decide +kernel

/-- A rover; periods 9, 10, 3,600 and 3,601; a full list; an entry, OFFERED or not; and a request without an entry. -/
theorem test_setRevisit_reached :
    let e (st : RevisitStatus) : RevisitEntry := { handle := at1, due := 0, status := st }
    let s (l : List RevisitEntry) : State := { with1 { nest with period := 0 } with scheduler := { up.scheduler with entries := l } }
    (with1 rover).lookupOwned 1#8 0#8 = .ok (at1, rover) ∧ rover.kind = .roving ∧ ¬(10 ≤ (9#16 : BitVec 16).toNat) ∧ 10 ≤ (10#16 : BitVec 16).toNat
      ∧ (3600#16 : BitVec 16).toNat ≤ 3600 ∧ ¬((3601#16 : BitVec 16).toNat ≤ 3600)
      ∧ 32 ≤ (s (List.replicate 32 { handle := { slot := 2, generation := 0 }, due := 0, status := .scheduled })).scheduler.entries.length
      ∧ (s (List.replicate 32 { handle := { slot := 2, generation := 0 }, due := 0, status := .scheduled })).entryAt 1 = none
      ∧ (s []).lookupOwned 1#8 0#8 = .ok (at1, { nest with period := 0 }) ∧ (s [e .offered]).entryAt 1 = some (e .offered)
      ∧ (s [e .due]).entryAt 1 = some (e .due) ∧ (queued .revisit nest).queuedAt 1 = some { request := asked .revisit, arrival := 0 }
      ∧ (queued .revisit nest).entryAt 1 = none := by
  (repeat' apply And.intro) <;> first | rfl | decide +kernel

theorem test_sync_reached :
    2 ^ 48 ≤ (281474976710656#64 : BitVec 64).toNat ∧ (281474976710655#48 : Time).toNat = (281474976710655#64 : BitVec 64).toNat
      ∧ (0#48 : Time) - up.time.count = up.time.offset ∧ (281474976710655#48 : Time) - up.time.count ≠ up.time.offset := by
  (repeat' apply And.intro) <;> first | rfl | decide +kernel

theorem test_noticeControl_reached :
    128 ≤ (128#8 : Byte).toNat ∧ 1 < (2#8 : Byte).toNat ∧ (127#7 : BitVec 7).toNat = (127#8 : Byte).toNat ∧ (0#8 : Byte) = up.notices.recordMask
      ∧ (0#7 : BitVec 7) = up.notices.deviceMask ∧ up.notices.master = false ∧ (127#7 : BitVec 7) ≠ up.notices.deviceMask := by
  (repeat' apply And.intro) <;> first | rfl | decide +kernel

/-- A device kind pending; a record kind pending in slot 1 and none before it; and nothing pending. -/
theorem test_nextNotice_reached :
    ({ up with notices := { up.notices with device := 0x40#7 } }).notices.device &&& ~~~up.notices.deviceMask ≠ 0#7
      ∧ (with1 { rover with notices := 0x80#8 }).recordAt 1 = some { rover with notices := 0x80#8 }
      ∧ (with1 { rover with notices := 0x80#8 }).slotPending 0 = false ∧ (with1 { rover with notices := 0x80#8 }).slotPending 1 = true
      ∧ (with1 { rover with notices := 0x80#8 }).notices.unmaskedDevice = 0#7 ∧ (∀ j, up.slotPending j = false) := by
  (repeat' apply And.intro) <;> first | rfl | decide +kernel

theorem test_sweepStarts_reached :
    slotOf 47#8 = some 47 ∧ (48#8 : Byte).toNat ≤ 48 ∧ walkOf 1#8 = some .down ∧ actionOf 4#8 = some .holdOff ∧ 4 < (5#8 : Byte).toNat
      ∧ ({ up with sweep := { up.sweep with inFlight := some (sweepAt 1 1) } }).sweep.inFlight = some (sweepAt 1 1)
      ∧ up.sweep.inFlight = none
      ∧ conditionOf { states := 0x3FF#16, kinds := 7#8, owners := 3#8, qualifiers := 0#8, outcome := 0#8 }
          = some (sweepAt 1 1).condition := by
  (repeat' apply And.intro) <;> first | rfl | decide +kernel

/-- The last slot of the count and of the table; a slot that matches with a record, of either owner, or VACANT; and one that does not match. -/
theorem test_sweepStep_reached :
    1 ≤ (sweepAt 1 1).remaining ∧ (sweepAt 47 2).next.val = 47 ∧ (sweepAt 47 2).remaining ≠ 1 ∧ (sweepAt 46 2).next.val ≠ 47
      ∧ (47 : Fin 48).val = (sweepAt 46 2).next.val + 1 ∧ (with1 nest).slotMatches (sweepAt 1 1).condition 1 = true
      ∧ (with1 nest).recordAt 1 = some nest ∧ (with1 nest).slotMatches (sweepAt 1 1).condition 2 = true ∧ (with1 nest).recordAt 2 = none
      ∧ (with1 nest).slotMatches { (sweepAt 1 1).condition with kinds := 2#3 } 1 = false ∧ nest.owner = .station
      ∧ (with1 { nest with owner := .pendant }).slotMatches (sweepAt 1 1).condition 1 = true := by
  (repeat' apply And.intro) <;> first | rfl | decide +kernel

/-- The last slot of a count under each of the five actions, on a record of the station's and on one of the pendant's: the sweep ends COUNT with the slot
acted on or skipped, and SWEEP is set. -/
theorem test_sweep_ends_under_each_action :
    ∀ a ∈ [SweepAction.release, .retire, .revisitOff, .holdOn, .holdOff], ∀ o ∈ [Owner.station, .pendant],
      let s := with1 { nest with owner := o }
      ∃ t, exec .sweepStep { s with sweep := { s.sweep with inFlight := some { sweepAt 1 1 with action := a } } } = .next t
        ∧ t.sweep = { inFlight := none, lastResult := some (if a = .release ∨ o = .station
            then { cause := .count, action := a, acted := 1, skipped := 0 } else { cause := .count, action := a, acted := 0, skipped := 1 }) }
        ∧ t.notices.device = deviceBit .sweep := by
  intro a ha o ho
  have : o = .station ∨ o = .pendant := by simpa using ho
  rcases this with rfl | rfl <;> cases a <;> exact ⟨_, rfl, by decide +kernel, by decide +kernel⟩

theorem test_reset_reached :
    (with1 nest).recordAt 1 = some nest ∧ (with1 nest).recordAt 2 = none ∧ (with1 nest).recordAt 0 = some Record.powerOnHome
      ∧ ((put up 0 { nest with kind := .home }).recordAt 0).bind (·.reference) = some { direction := here, range := 1000000 }
      ∧ ({ up with sweep := { up.sweep with inFlight := some (sweepAt 1 1) } }).sweep.inFlight = some (sweepAt 1 1) := by
  (repeat' apply And.intro) <;> rfl

/-- Spot offsets of 4,000 and 4,001, no expected number, and the three ways to do nothing else. -/
theorem test_framesCounted_reached :
    FrameGood (frame 4000 (-4000) 600) ∧ ¬FrameGood (frame 4001 0 600) ∧ up.ports.expectedFrame = none ∧ up.arbiter.grant = none
      ∧ State.reset.arbiter.runMode = .parked ∧ ({ frame 0 0 0 with parityAgrees := false } : Frame).parityAgrees = false := by
  refine ⟨?_, ?_, rfl, rfl, rfl, rfl⟩ <;> simp [FrameGood, frame]

/-- In SLEWING, COASTING and SEARCHING: intensity 63 and 64, a return 2,500 and 2,501 µrad from the centre, and one in another nest's window. -/
theorem test_huntingFrames_reached :
    (∀ st ∈ [Stage.slewing, .coasting], Pursuing (serving .station st nest) (asked .station) (context .station st) { nest with state := .active st }
        ∧ ({ nest with state := .active st } : Record).prediction (asked .station).aim (serving .station st nest).time.count = some here)
      ∧ (context .station .searching).stage = .searching ∧ FrameGood (frame 2500 0 64) ∧ 63 < ClassEntry.powerOn.minIntensity
      ∧ ClassEntry.powerOn.minIntensity ≤ 64
      ∧ (azimuthDifference { azimuth := 102500, elevation := 20000 } here).natAbs ≤ ClassEntry.powerOn.captureRadius
      ∧ ¬((azimuthDifference { azimuth := 102501, elevation := 20000 } here).natAbs ≤ ClassEntry.powerOn.captureRadius)
      ∧ InWindowOf (put (serving .station .slewing rover) 2 (second 1500)) { azimuth := 102500, elevation := 20000 } 2
      ∧ ∀ j, ¬InWindowOf (serving .station .slewing rover) { azimuth := 102500, elevation := 20000 } j := by
  simp only [← insideZone_iff]
  refine ⟨?_, rfl, by simp [FrameGood, frame], ?_⟩
  · intro st hst
    exact ⟨serving_pursuing .station st nest, rfl⟩
  · (repeat' apply And.intro) <;> first | rfl | decide +kernel

/-- R41: in SEARCHING at an elevation of 1,499,000 a spot 2,500 µrad up is captured, its direction held at 1,500,000, and one 2,501 µrad up is a false
return. -/
theorem test_searching_judges_the_spot :
    let f (y : Int) : Frame := { frame 0 y 600 with encoderElevation := 1499000 }
    Pursuing (serving .station .searching rover) (asked .station) (context .station .searching) { rover with state := .active .searching }
      ∧ FrameGood (f 2501)
      ∧ (∃ t, exec (.detectorFrame (f 2500)) (serving .station .searching rover) = .next t
          ∧ t.ports.driveOut = [.follow { azimuth := 100000, elevation := 1500000 }])
      ∧ ∃ t, exec (.detectorFrame (f 2501)) (serving .station .searching rover) = .next t ∧ t.notices.falseReturns = 1 :=
  ⟨serving_pursuing _ _ _, by simp [FrameGood, frame], ⟨_, rfl, by decide +kernel⟩, ⟨_, rfl, by decide +kernel⟩⟩

/-- In CENTRING: no return, and a return 2,501 µrad away on either axis. -/
theorem test_centringLost_reached :
    Pursuing (serving .station .centring rover) (asked .station) (context .station .centring) { rover with state := .active .centring }
      ∧ FrameGood (frame 0 0 63) ∧ FrameGood (frame 2501 0 600) ∧ (context .station .centring).lastCaptured = some here
      ∧ 63 < ClassEntry.powerOn.minIntensity
      ∧ ClassEntry.powerOn.captureRadius < (azimuthDifference { azimuth := 102501, elevation := 20000 } here).natAbs
      ∧ ClassEntry.powerOn.captureRadius < (elevationDifference { azimuth := 100000, elevation := 22501 } here).natAbs := by
  refine ⟨serving_pursuing _ _ _, by simp [FrameGood, frame], by simp [FrameGood, frame], rfl, ?_⟩
  (repeat' apply And.intro) <;> first | rfl | decide +kernel

/-- A spot of length 150 is centred and one of length 151 is not; centred counts of 1 and 2; and RANGING. -/
theorem test_centringCounts_reached :
    Pursuing (serving .station .ranging rover) (asked .station) (context .station .ranging) { rover with state := .active .ranging }
      ∧ FrameGood (frame 90 120 64) ∧ (90 * 90 + 120 * 120 : Int) ≤ 150 * 150 ∧ ¬((151 * 151 : Int) ≤ 150 * 150)
      ∧ ({ context .station .centring with centredCount := 1 } : Context).centredCount < 2 ∧ (context .station .centring).centredCount = 2
      ∧ (azimuthDifference { azimuth := 100090, elevation := 20120 } here).natAbs ≤ 2500 := by
  refine ⟨serving_pursuing _ _ _, by simp [FrameGood, frame], ?_⟩
  (repeat' apply And.intro) <;> first | rfl | decide +kernel

/-- In LOCKED: a return in no window, one in the window of slot 2 alone, and none. -/
theorem test_lockedFrames_reached :
    let s := put (serving .station .locked rover) 2 (second 1500)
    Pursuing s (asked .station) (context .station .locked) { rover with state := .active .locked } ∧ FrameGood (frame 4000 0 64)
      ∧ (∀ j : Fin 48, j ≠ 1 → ¬InWindowOf s here j) ∧ InWindowOf s { azimuth := 104000, elevation := 20000 } 2
      ∧ ∀ k : Fin 48, k < 2 → k ≠ 1 → ¬InWindowOf s { azimuth := 104000, elevation := 20000 } k := by
  simp only [← insideZone_iff]
  refine ⟨⟨rfl, rfl, rfl, rfl, rfl, rfl, rfl, rfl⟩, by simp [FrameGood, frame], ?_⟩
  (repeat' apply And.intro) <;> first | rfl | decide +kernel

/-- A stale tag; no move in flight; SLEWING; the waypoints of 3.8's example: the next of the ring, one after skipped ones, the next ring, none left; the last
waypoint of the last ring; and the REVISIT and INTERNAL origins, with an entry OFFERED. -/
theorem test_arrivals_reached :
    (serving .station .searching rover).ports.latestMoveTag ≠ some 8#8 ∧ (serving .station .searching rover).ports.latestMoveTag = some 9#8
      ∧ Pursuing (serving .station .searching rover) (asked .station) (context .station .searching) { rover with state := .active .searching }
      ∧ NoOtherRequest (serving .station .searching rover) ∧ (context .station .searching).search = some topOfSky
      ∧ (waypointAt topOfSky 1 1).elevation.natAbs ≤ 1500000 ∧ (waypointAt topOfSky 2 5).elevation.natAbs ≤ 1500000
      ∧ (∀ i < 5, 1 < i → ¬((waypointAt topOfSky 2 i).elevation.natAbs ≤ 1500000)) ∧ (waypointAt topOfSky 2 0).elevation.natAbs ≤ 1500000
      ∧ (∀ i, 11 < i → ¬(i < 6 * 2)) ∧ (71 < 6 * 12 ∧ 12 ≤ 12 : Prop) ∧ topOfSky.ringStep ≤ 10000
      ∧ (∀ o ∈ [Origin.revisit, .internal],
          let s := listing (serving o .searching nest) [entry1 0 .offered]
          Pursuing s (asked o) (context o .searching) { nest with state := .active .searching } ∧ NoOtherRequest s
            ∧ s.entryAt (context o .searching).target.slot = some (entry1 0 .offered)) := by
  refine ⟨by decide +kernel, rfl, serving_pursuing _ _ _, serving_alone _ _ _, rfl, by decide +kernel, by decide +kernel, by decide +kernel,
    by decide +kernel, by omega, by decide, by decide, fun o _ => ⟨⟨rfl, rfl, rfl, rfl, rfl, rfl, rfl, rfl⟩, ⟨⟨rfl, rfl⟩, rfl, rfl⟩, rfl⟩⟩

/-- An end with others waiting, of each origin, at the last waypoint, at a drive FAULT and at a DONE: the beam passes to slot 3 with one MOVE. -/
theorem test_ends_pass_the_beam :
    (∀ o ∈ [Origin.station, .pendant, .revisit, .internal],
      let s (st : Stage) := listing (crowding o st nest 5 5) [entry1 0 .offered]
      let spent : State := { s .searching with pursuit := some { context o .searching with search := some { topOfSky with ring := 2, index := 11 } } }
      NothingDue (s .locked) ∧ (s .locked).entryAt 1 = some (entry1 0 .offered)
        ∧ (∃ t, exec (.arrived 9) spent = .next t ∧ t.arbiter.grant = some (askedFor 3 .station 5) ∧ (t.recordAt 1).map (·.outcome) = some .lost)
        ∧ (∃ t, exec (.driveFault 9 .limit) (s .locked) = .next t ∧ t.arbiter.grant = some (askedFor 3 .station 5)
            ∧ (t.recordAt 1).map (·.outcome) = some .fault)
        ∧ ∃ t, exec (.reading 3 1000000) (s .locked) = .next t
            ∧ t.arbiter.grant = some (if o = .revisit ∨ o = .internal then askedFor 3 .station 5 else asked o)) := by
  intro o _
  cases o <;>
    exact ⟨⟨rfl, rfl⟩, rfl, ⟨_, rfl, by decide +kernel, by decide +kernel⟩, ⟨_, rfl, by decide +kernel, by decide +kernel⟩, ⟨_, rfl, by decide +kernel⟩⟩

/-- A stale tag; no grant; and a grant of each origin, a REVISIT one with its entry OFFERED. -/
theorem test_driveFault_reached :
    (serving .station .locked nest).ports.latestMoveTag = some 9#8 ∧ up.ports.latestMoveTag ≠ some 9#8
      ∧ (∀ o, Pursuing (serving o .locked nest) (asked o) (context o .locked) { nest with state := .active .locked }
          ∧ NoOtherRequest (serving o .locked nest))
      ∧ (let e : RevisitEntry := { handle := at1, due := 0, status := .offered }
         let s : State := { serving .revisit .locked nest with scheduler := { up.scheduler with entries := [e] } }
         s.entryAt (context .revisit .locked).target.slot = some e ∧ NoOtherRequest s) := by
  refine ⟨rfl, by decide +kernel, fun o => ⟨serving_pursuing _ _ _, serving_alone _ _ _⟩, rfl, ⟨rfl, rfl⟩, rfl, rfl⟩

/-- No tag and a stale tag; first reading, and later ones 200 and 201 µm from the held one, at the third and the fourth. -/
theorem test_rangingReadings_reached :
    up.ports.outstanding = none ∧ (serving .station .ranging rover).ports.outstanding = some { tag := 3, deadline := 0 }
      ∧ Pursuing (serving .station .ranging rover) (asked .station) (context .station .ranging) { rover with state := .active .ranging }
      ∧ (context .station .ranging).heldReading = some 1000000 ∧ ((1000000 : Int) - 1000200).natAbs ≤ ClassEntry.powerOn.rangeAgreement
      ∧ ¬(((1000000 : Int) - 1000201).natAbs ≤ ClassEntry.powerOn.rangeAgreement) ∧ 3 ≤ (context .station .ranging).readings
      ∧ 1 ≤ ({ context .station .ranging with readings := 2 } : Context).readings ∧ ({ context .station .ranging with readings := 0 } : Context).readings = 0
      ∧ (context .station .ranging).lastCaptured = some here := by
  refine ⟨rfl, rfl, serving_pursuing _ _ _, rfl, ?_⟩
  (repeat' apply And.intro) <;> first | rfl | decide +kernel

/-- A LOCKED rover: hold with a fix pending, and not; fix interval 0 and not; a previous fix 0, 1, 2,000,000 and 2,000,001 µs old. -/
theorem test_lockedReadings_reached :
    Pursuing (serving .station .locked rover) (asked .station) (context .station .locked) { rover with state := .active .locked }
      ∧ (serving .station .locked rover).ports.outstanding = some { tag := 3, deadline := 0 } ∧ rover.kind = .roving
      ∧ (context .station .locked).lastCaptured = some here ∧ (context .station .locked).latestIntensity = some 600
      ∧ rover.fix = some fixHere ∧ rover.params.fixInterval = 0 ∧ (0#48 - fixHere.composed).toNat = 0 ∧ 1 ≤ (1#48 - fixHere.composed).toNat
      ∧ (2000000#48 - fixHere.composed).toNat ≤ 2000000 ∧ 2000000 < (2000001#48 - fixHere.composed).toNat ∧ fixHere.near = none
      ∧ (context .station .locked).nearSlot = none := by
  refine ⟨serving_pursuing _ _ _, rfl, rfl, rfl, rfl, rfl, rfl, ?_⟩
  (repeat' apply And.intro) <;> first | rfl | decide +kernel

/-- A LOCKED nest under each origin; deviations at a tolerance and past it; with an entry and without; and one without a reference whose fix is discarded,
overlaps another window, and does not. -/
theorem test_fixedReadings_reached :
    (∀ o, Pursuing (serving o .locked nest) (asked o) (context o .locked) { nest with state := .active .locked } ∧ NoOtherRequest (serving o .locked nest)
        ∧ LineTellsCondition (serving o .locked nest))
      ∧ nest.kind ≠ .roving ∧ nest.reference = some { direction := here, range := 1000000 } ∧ ¬(nest.rangeTolerance < (200 : Int).natAbs)
      ∧ nest.rangeTolerance < (201 : Int).natAbs ∧ nest.params.fixInterval = 0 ∧ (serving .revisit .locked nest).entryAt 1 = none
      ∧ (({ serving .revisit .locked nest with scheduler :=
            { up.scheduler with entries := [{ handle := at1, due := 0, status := .offered }] } } : State).entryAt 1).isSome = true
      ∧ (let bare : Record := { nest with reference := none, hold := true, fixPending := true, state := .active .locked }
         let fixed (s : State) : State := s.withRecord at1 { bare with fix := some fixHere }
         Pursuing (serving .station .locked bare) (asked .station) (context .station .locked) bare ∧ bare.reference = none
           ∧ LineTellsCondition (serving .station .locked bare) ∧ WindowsOverlap (fixed (put (serving .station .locked bare) 2 (second 1500))) 1 2
           ∧ ∀ j, j ≠ 1 → ¬WindowsOverlap (fixed (serving .station .locked bare)) 1 j) := by
  have apart : ∀ j : Fin 48, j ≠ 1 → (State.withRecord (serving .station .locked { nest with reference := none, hold := true, fixPending := true }) at1
      { nest with reference := none, hold := true, fixPending := true, state := .active .locked, fix := some fixHere }).pairOverlaps 1 j = false := by
    decide +kernel
  refine ⟨fun o => ⟨serving_pursuing _ _ _, serving_alone _ _ _, ?_⟩, ?_⟩
  · cases o <;> (unfold LineTellsCondition; decide +kernel)
  · refine ⟨by decide, rfl, by decide, by decide, rfl, rfl, rfl, ⟨rfl, rfl, rfl, rfl, rfl, rfl, rfl, rfl⟩, rfl, ?_,
      (pairOverlaps_iff _ _ _).mp (by decide +kernel), fun j hj h => by cases (apart j hj).symm.trans ((pairOverlaps_iff _ _ _).mpr h)⟩
    unfold LineTellsCondition; decide +kernel

/-- A LOCKED nest with a fix interval of 1 ms, under the station: the fix wait. -/
theorem test_fixed_reading_waits :
    let r : Record := { nest with params := { nest.params with fixInterval := 1 } }
    Pursuing (serving .station .locked r) (asked .station) (context .station .locked) { r with state := .active .locked } ∧ r.params.fixInterval ≠ 0
      ∧ ∃ t, exec (.reading 3 1000000) (serving .station .locked r) = .next t ∧ t.pursuit.bind (·.fixWait) = some 1000#48 ∧ t.ports.outstanding = none :=
  ⟨serving_pursuing _ _ _, by decide, _, rfl, rfl, rfl⟩

/-- A stale tag, a deadline not reached and one just reached; RANGING and LOCKED. -/
theorem test_rangeFailures_reached :
    (∀ st ∈ [Stage.ranging, .locked],
        Pursuing (serving .station st rover) (asked .station) (context .station st) { rover with state := .active st }
          ∧ (serving .station st rover).ports.outstanding = some { tag := 3, deadline := 0 } ∧ DeadlineReached (serving .station st rover) 0
          ∧ ¬DeadlineReached (serving .station st rover) 1 ∧ (context .station st).lastCaptured = some here)
      ∧ up.ports.outstanding = none := by
  refine ⟨fun st hst => ⟨serving_pursuing _ _ _, rfl, ?_, ?_, rfl⟩, rfl⟩
  · show (0#48 - 0#48).toNat < 2 ^ 47; decide +kernel
  · show ¬((0#48 - 1#48).toNat < 2 ^ 47); decide +kernel

/-- Each deadline one µs ahead and just reached; a due time of a DORMANT nest at a free beam, released and frozen. -/
theorem test_deadlines_reached :
    let e : RevisitEntry := { handle := at1, due := 0, status := .scheduled }
    let s : State := { with1 nest with scheduler := { up.scheduler with entries := [e] } }
    Pursuing (serving .station .coasting rover) (asked .station) (context .station .coasting) { rover with state := .active .coasting }
      ∧ (context .station .coasting).coastDeadline = some 0 ∧ (context .station .coasting).fixWait = some 0
      ∧ (context .station .searching).search = some topOfSky ∧ topOfSky.deadline = 0
      ∧ ({ rover with state := .active .coasting } : Record).prediction (asked .station).aim (serving .station .coasting rover).time.count = some here
      ∧ DeadlineReached (serving .station .coasting rover) 0 ∧ ¬DeadlineReached (serving .station .coasting rover) 1
      ∧ NoOtherRequest (serving .station .searching rover)
      ∧ s.scheduler.entries = [] ++ e :: [] ∧ DeadlineReached s e.due ∧ ¬DeadlineReached s 1 ∧ s.scheduler.frozen = false ∧ s.arbiter.runMode = .running
      ∧ s.arbiter.grant = none ∧ NoOtherRequest s ∧ s.arbiter.arrivalCounter < 65535 ∧ s.live e.handle = some nest ∧ nest.state = .dormant
      ∧ nest.position = some here
      ∧ (∀ o ∈ [Origin.revisit, .internal],
          let s := listing (serving o .searching nest) [entry1 0 .offered]
          Pursuing s (asked o) (context o .searching) { nest with state := .active .searching } ∧ NoOtherRequest s
            ∧ s.entryAt (context o .searching).target.slot = some (entry1 0 .offered)) := by
  refine ⟨serving_pursuing _ _ _, rfl, rfl, rfl, rfl, rfl, ?_, ?_, serving_alone _ _ _, rfl, ?_, ?_, rfl, rfl, rfl, ⟨⟨rfl, rfl⟩, rfl, rfl⟩, ?_, rfl, rfl, rfl,
    fun o _ => ⟨⟨rfl, rfl, rfl, rfl, rfl, rfl, rfl, rfl⟩, ⟨⟨rfl, rfl⟩, rfl, rfl⟩, rfl⟩⟩
  · show (0#48 - 0#48).toNat < 2 ^ 47; decide +kernel
  · show ¬((0#48 - 1#48).toNat < 2 ^ 47); decide +kernel
  · show (0#48 - 0#48).toNat < 2 ^ 47; decide +kernel
  · show ¬((0#48 - 1#48).toNat < 2 ^ 47); decide +kernel
  · decide +kernel

/-- A due time before DUE entries, under a grant whose priority no offer tops: of a nest, a nest without a position, and a record that is not DORMANT, the
first is queued, the second missed, the third passed over; and with the queue full, the pass ends at the first. -/
theorem test_offer_pass_reached :
    let first : RevisitEntry := { handle := { slot := 4, generation := 0 }, due := 0, status := .scheduled }
    let s : State := put (overdue (put { up with arbiter := { up.arbiter with grant := some (askedFor 5 .station 3) } } 5 rover)) 4 nest
    let t : State := listing s (first :: s.scheduler.entries)
    let full : State := { t with arbiter := { t.arbiter with queue := List.replicate 12 { request := askedFor 6 .station 3, arrival := 0 } } }
    (∀ x ∈ [t, full], x.scheduler.entries = [] ++ first :: s.scheduler.entries ∧ DeadlineReached x first.due
        ∧ (∀ y ∈ s.scheduler.entries, y.handle.slot ≠ first.handle.slot) ∧ x.scheduler.frozen = false ∧ x.arbiter.runMode = .running
        ∧ OffersStayBelow x ∧ x.arbiter.arrivalCounter < 65500 ∧ (x.scheduler.entries.map (·.handle.slot)).Nodup)
      ∧ (∃ u, exec .dueTimeExpiry t = .next u
          ∧ u.arbiter.queue = [{ request := askedFor 4 .revisit 3, arrival := 0 }, { request := askedFor 1 .revisit 3, arrival := 1 }]
          ∧ (u.recordAt 2).map (·.missCount) = some 1 ∧ (u.entryAt 3).map (·.status) = some .due)
      ∧ ∃ u, exec .dueTimeExpiry full = .next u ∧ u.scheduler.entries.map (·.status) = [.due, .due, .due, .due] := by
  intro first s t full
  refine ⟨?_, ⟨_, rfl, by decide +kernel, by decide +kernel, by decide +kernel⟩, ⟨_, rfl, by decide +kernel⟩⟩
  intro x hx
  have : x = t ∨ x = full := by simpa using hx
  rcases this with rfl | rfl <;>
    refine ⟨rfl, ?_, by decide, rfl, rfl, ⟨(fun h => by cases h), fun g hg => by cases hg; decide +kernel⟩, by decide +kernel, by decide +kernel⟩
  all_goals show (0#48 - 0#48).toNat < 2 ^ 47; decide +kernel

/-- A due time whose offer tops the grant, at priority 3 over 2: a REVISIT grant goes back to the queue, a station one to the stack, or, without
auto-resume, is dropped. -/
theorem test_preempting_offer_reached :
    let due : RevisitEntry := { handle := { slot := 2, generation := 0 }, due := 0, status := .scheduled }
    let s (o : Origin) (r : Record) : State :=
      let x := listing (put (serving o .locked r) 2 (second 0)) [due]
      { x with arbiter := { x.arbiter with grant := some { asked o with priority := 2 } } }
    (∀ o r, Pursuing (s o r) { asked o with priority := 2 } (context o .locked) { r with state := .active .locked } ∧ NothingDue (s o r)
        ∧ (s o r).arbiter.queue = [] ∧ (s o r).arbiter.stack = [] ∧ (s o r).scheduler.entries = [] ++ due :: []
        ∧ (s o r).live due.handle = some (second 0) ∧ (second 0).state = .dormant ∧ (second 0).position.isSome = true)
      ∧ (∃ t, exec .dueTimeExpiry (s .revisit nest) = .next t ∧ t.arbiter.grant = some (askedFor 2 .revisit 3)
          ∧ t.arbiter.queue = [{ request := { asked .revisit with priority := 2 }, arrival := 1 }])
      ∧ (∃ t, exec .dueTimeExpiry (s .station rover) = .next t ∧ t.arbiter.stack = [{ asked .station with priority := 2 }])
      ∧ ∃ t, exec .dueTimeExpiry (s .station nest) = .next t ∧ (t.recordAt 1).map (·.outcome) = some .preempted := by
  refine ⟨fun o r => ⟨⟨rfl, rfl, rfl, rfl, rfl, rfl, rfl, rfl⟩, ⟨rfl, rfl⟩, rfl, rfl, rfl, rfl, rfl, rfl⟩, ⟨_, rfl, by decide +kernel, by decide +kernel⟩,
    ⟨_, rfl, by decide +kernel⟩, ⟨_, rfl, by decide +kernel⟩⟩

/-- A status frame that answers POLL of an empty slot. -/
def silent : StatusFrame := up.statusFrame 1 .vacant (some 0#8) none

/-- The line busy with a status frame, and n more waiting. -/
def sendingOne (n : Nat) : State := { up with pendant := { up.pendant with sending := some silent, waiting := List.replicate n silent } }

/-- A break counted already and not; a frame being sent, four waiting, or none; the silence deadline one µs ahead and just reached, with a PENDANT request
queued. -/
theorem test_pendantLine_reached :
    let s : State := { queued .pendant nest with pendant := { up.pendant with silenceDeadline := some 0, inBreak := true } }
    s.pendant.inBreak = true ∧ up.pendant.inBreak = false ∧ up.pendant.sending = none ∧ s.pendant.silenceDeadline = some 0
      ∧ (sendingOne 4).resetnLow = false ∧ (sendingOne 4).scheduler.passWanted = false ∧ (sendingOne 4).pendant.sending = some silent
      ∧ (sendingOne 4).pendant.waiting = List.replicate 4 silent
      ∧ DeadlineReached s 0 ∧ ¬DeadlineReached s 1 ∧ NothingDue s
      ∧ (∃ x ∈ s.arbiter.queue, x.request.origin = .pendant ∧ x.request.handle = s.handleOf 1) := by
  refine ⟨rfl, rfl, rfl, rfl, rfl, rfl, rfl, rfl, ?_, ?_, ⟨rfl, rfl⟩, ⟨_, List.mem_singleton.mpr rfl, rfl, rfl⟩⟩
  · show (0#48 - 0#48).toNat < 2 ^ 47; decide +kernel
  · show ¬((0#48 - 1#48).toNat < 2 ^ 47); decide +kernel

/-- A PENDANT-owned record in slot 47, at offset 7, whose generation was reported. -/
def held (s : State) (r : Record) : State :=
  put { s with pendant := { s.pendant with reported := s.pendant.reported.set 47 (some 0) } } 47 { r with owner := .pendant }

theorem held_holds (r : Record) : PendantHolds (held up r) 7#8 47 { r with owner := .pendant } :=
  ⟨rfl, rfl, by show (7#8 : Byte).toNat < 8; decide, rfl, rfl, rfl, rfl⟩

/-- Lengths 0 and 2; offsets 7 and 8 at the end of the window; VACANT, STATION-owned, PENDANT-owned with the generation reported and not; and the status
line idle, busy, and full. -/
theorem test_pendantChecks_reached :
    pendantKindOf (.poll []) = some (1#8, []) ∧ pendantKindOf (.claimNew [0#8]) = some (2#8, [0#8]) ∧ up.table.pendantWindow.length ≤ (8#8 : Byte).toNat
      ∧ (7#8 : Byte).toNat < up.table.pendantWindow.length ∧ (47 : Fin 48).val = up.table.pendantWindow.base + (7#8 : Byte).toNat
      ∧ up.recordAt 47 = none ∧ (put up 47 rover).recordAt 47 = some rover ∧ rover.owner = .station
      ∧ (put up 47 { rover with owner := .pendant }).pendant.reported[(47 : Fin 48).val] ≠ some ((put up 47 rover).slotAt 47).generation
      ∧ up.pendant.sending = none ∧ (sendingOne 3).pendant.sending = some silent ∧ (sendingOne 3).pendant.waiting.length < 4
      ∧ (sendingOne 4).pendant.sending = some silent ∧ 4 ≤ (sendingOne 4).pendant.waiting.length := by
  (repeat' apply And.intro) <;> first | rfl | decide +kernel

/-- A frame of a VACANT slot, and one that names no slot, byte by byte (10.6). -/
theorem test_status_frame_bytes :
    (up.statusFrame 1 .vacant (some 7#8) none).bytes
        = [0xA7#8, 13#8, 0x81#8, 0x07#8, 7#8, 47#8, 0#8, 0#8, 0#8, 0#8, 0#8, 0#8, 0#8, 0#8, 0#8, 0#8, 0xA3#8]
      ∧ (up.statusFrame 2 .full none none).bytes
        = [0xA7#8, 13#8, 0x82#8, 0x0A#8, 0xFF#8, 0xFF#8, 0#8, 0xFF#8, 0#8, 0#8, 0#8, 0#8, 0#8, 0#8, 0#8, 0#8, 0x7A#8]
      ∧ up.pursuit = none ∧ up.recordAt 47 = none := by decide +kernel

/-- A window of one slot that is full, and slot 40 as the lowest VACANT one; a record that is not LOCKED and one that is, with mark counter 255. -/
theorem test_pendantClaimsAndMarks_reached :
    (∀ i, ({ base := 1, length := 1 } : AllocWindow).contains i = true → (with1 nest).recordAt i ≠ none)
      ∧ up.table.pendantWindow.contains 40 = true ∧ up.recordAt 40 = none
      ∧ (∀ j, j < 40 → up.table.pendantWindow.contains j = true → up.recordAt j ≠ none)
      ∧ PendantHolds (held up rover) 7#8 47 { rover with owner := .pendant } ∧ rover.state ≠ .active .locked
      ∧ (let s := held { up with pursuit := some (context .pendant .locked), pendant := { up.pendant with markCounter := 255 } }
            { rover with state := .active .locked }
         PendantHolds s 7#8 47 { rover with owner := .pendant, state := .active .locked } ∧ s.pursuit = some (context .pendant .locked)
           ∧ s.pendant.markCounter = 255) := by
  refine ⟨by decide +kernel, by decide +kernel, by decide +kernel, by decide +kernel, held_holds rover, by decide, ⟨rfl, rfl, by decide, rfl, rfl, rfl, rfl⟩,
    rfl, rfl⟩

/-- FIND while PARKED, of an active record, without a prediction, and at a free beam; LET-GO of a QUEUED record and of the record the beam serves. -/
theorem test_pendantRequests_reached :
    let q (o : Origin) : Request := { asked o with handle := { slot := 47, generation := 0 } }
    let inQueue : State := held { up with arbiter := { up.arbiter with queue := [{ request := q .pendant, arrival := 0 }] } } { rover with state := .queued }
    let served : State :=
      held { up with
          pursuit := some { context .pendant .locked with target := { slot := 47, generation := 0 } }
          arbiter := { up.arbiter with grant := some (q .pendant) } }
        { rover with state := .active .locked }
    PendantHolds (held State.reset rover) 7#8 47 { rover with owner := .pendant } ∧ (held State.reset rover).arbiter.runMode = .parked
      ∧ PendantHolds (held up rover) 7#8 47 { rover with owner := .pendant } ∧ NoOtherRequest (held up rover) ∧ (held up rover).arbiter.grant = none
      ∧ rover.prediction none (held up rover).time.count = some here ∧ ({ rover with fix := none } : Record).prediction none up.time.count = none
      ∧ PendantHolds inQueue 7#8 47 { rover with owner := .pendant, state := .queued }
      ∧ inQueue.queuedAt 47 = some { request := q .pendant, arrival := 0 } ∧ NothingDue inQueue
      ∧ PendantHolds served 7#8 47 { rover with owner := .pendant, state := .active .locked }
      ∧ Pursuing served (q .pendant) { context .pendant .locked with target := { slot := 47, generation := 0 } }
          { rover with owner := .pendant, state := .active .locked }
      ∧ NoOtherRequest served := by
  refine ⟨⟨rfl, rfl, by decide, rfl, rfl, rfl, rfl⟩, rfl, held_holds rover, ⟨⟨rfl, rfl⟩, rfl, rfl⟩, rfl, rfl, rfl,
    ⟨rfl, rfl, by decide, rfl, rfl, rfl, rfl⟩, rfl, ⟨rfl, rfl⟩, ⟨rfl, rfl, by decide, rfl, rfl, rfl, rfl⟩, ⟨rfl, rfl, rfl, rfl, rfl, rfl, rfl, rfl⟩,
    ⟨rfl, rfl⟩, rfl, rfl⟩

/-- The beam serving slot 1 at a priority, and a PENDANT-owned record in slot 47 with its requests in the queue and on the stack. -/
def heldWith (r : Record) (granted : Nat) (queue : List QueueEntry) (stack : List Request) : State :=
  let s := held (serving .station .locked rover) r
  { s with arbiter := { s.arbiter with arrivalCounter := 9, grant := some { asked .station with priority := granted }, queue := queue, stack := stack } }

/-- FIND, priority 5, of a record that is DORMANT, QUEUED or SUSPENDED, under a grant of priority 5 and of priority 4; LET-GO and DROP of each. -/
theorem test_pendantRequests_under_a_grant :
    let inQueue (p : Nat) : QueueEntry := { request := askedFor 47 .revisit p, arrival := 3 }
    let dormant (g : Nat) := heldWith rover g [] []
    let waiting (g : Nat) := heldWith { rover with state := .queued } g [inQueue 2] []
    let suspended := heldWith { rover with state := .suspended } 4 [] [askedFor 47 .pendant 2]
    (∀ g, PendantHolds (dormant g) 7#8 47 { rover with owner := .pendant }
        ∧ PendantHolds (waiting g) 7#8 47 { rover with owner := .pendant, state := .queued }
        ∧ PendantHolds suspended 7#8 47 { rover with owner := .pendant, state := .suspended }
        ∧ Pursuing (waiting g) { asked .station with priority := g } (context .station .locked) { rover with state := .active .locked }
        ∧ NothingDue (waiting g) ∧ NothingDue (dormant g) ∧ NothingDue suspended ∧ (waiting g).arbiter.priorities.pendant = 5)
      ∧ (∃ t, exec (.find [7#8]) (dormant 5) = .next t ∧ t.arbiter.queue = [{ request := askedFor 47 .pendant 5, arrival := 9 }])
      ∧ (∃ t, exec (.find [7#8]) (dormant 4) = .next t ∧ t.arbiter.grant = some (askedFor 47 .pendant 5)
          ∧ t.arbiter.stack = [{ asked .station with priority := 4 }])
      ∧ (∃ t, exec (.find [7#8]) (waiting 5) = .next t ∧ t.arbiter.queue = [inQueue 5])
      ∧ (∃ t, exec (.find [7#8]) (waiting 4) = .next t ∧ t.arbiter.grant = some (askedFor 47 .revisit 5))
      ∧ (∃ t, exec (.find [7#8]) suspended = .next t ∧ t.arbiter.stack = [askedFor 47 .pendant 5])
      ∧ (∃ t, exec (.letGo [7#8]) suspended = .next t ∧ t.arbiter.stack = [] ∧ (t.recordAt 47).map (·.outcome) = some .released)
      ∧ ∃ t, exec (.drop [7#8]) suspended = .next t ∧ t.arbiter.stack = [] ∧ t.slotAt 47 = { generation := 1, record := none } := by
  refine ⟨fun g => ⟨⟨rfl, rfl, by show (7#8 : Byte).toNat < 8; decide, rfl, rfl, rfl, rfl⟩, ⟨rfl, rfl, by show (7#8 : Byte).toNat < 8; decide, rfl, rfl, rfl, rfl⟩,
    ⟨rfl, rfl, by show (7#8 : Byte).toNat < 8; decide, rfl, rfl, rfl, rfl⟩, ⟨rfl, rfl, rfl, rfl, rfl, rfl, rfl, rfl⟩, ⟨rfl, rfl⟩, ⟨rfl, rfl⟩, ⟨rfl, rfl⟩, rfl⟩,
    ⟨_, rfl, by decide +kernel⟩, ⟨_, rfl, by decide +kernel, by decide +kernel⟩, ⟨_, rfl, by decide +kernel⟩, ⟨_, rfl, by decide +kernel⟩,
    ⟨_, rfl, by decide +kernel⟩, ⟨_, rfl, by decide +kernel, by decide +kernel⟩, ⟨_, rfl, by decide +kernel, by decide +kernel⟩⟩

/-- A Boolean property of every record of a state, from its value slot by slot. -/
theorem every_record {s : State} (P : Fin 48 → Record → Bool) (h : ∀ i, (s.recordAt i).all (P i) = true) :
    ∀ i r, s.recordAt i = some r → P i r = true := fun i r hr => by have := h i; rw [hr] at this; exact this

/-- The beam serving the revisit of slot 1, its entry OFFERED; slot 2 QUEUED at the grant's priority and slot 3 SUSPENDED; a PENDANT-owned record in slot
47; and BEAM-STATUS waiting to be run. -/
def busy : State :=
  let s := put (put (put (listing (serving .revisit .locked { nest with period := 10 }) [entry1 5 .offered]) 2 { second 0 with period := 0, state := .queued }) 3
    { rover with state := .suspended }) 47 { rover with owner := .pendant }
  { s with
    pending := [.beamStatus]
    arbiter := { s.arbiter with
      arrivalCounter := 2, queue := [{ request := askedFor 2 .station 4, arrival := 1 }], stack := [askedFor 3 .pendant 5] } }

/-- A state that meets every invariant's hypotheses, and takes a step: the records and the tables. -/
theorem test_recordInvariants_reached : HomeStays busy ∧ WindowsLegal busy ∧ RecordsLegal busy ∧ ∃ t, step busy = .next t := by
  refine ⟨⟨rfl, ⟨_, rfl, rfl, rfl⟩, fun i r hi hr => ?_⟩, ⟨by decide, by decide, fun i r hr ho => ?_⟩, fun i r hr => ?_, _, rfl⟩
  · have := every_record (fun i r => decide (i = 0) || decide (r.kind ≠ .home)) (by decide +kernel) i r hr
    simpa [hi] using this
  · have := every_record (fun i r => decide (r.owner = .station) || busy.table.pendantWindow.contains i) (by decide +kernel) i r hr
    simpa [ho] using this
  · have := every_record (fun _ r => decide ((r.kind = .roving → r.reference = none ∧ r.drift = .none ∧ r.lastDeviation = none ∧ r.period = 0)
      ∧ (r.kind ≠ .roving → r.motion = none) ∧ (r.fixOverrun = true → r.fixPending = true) ∧ r.params.Fits
      ∧ PeriodFits r.period)) (by decide +kernel) i r hr
    have legal := of_decide_eq_true this
    exact legal

/-- The same state: the line, the links, the tables, the stores and the list. -/
theorem test_lineInvariants_reached : LineTellsCondition busy ∧ LinkLegal busy ∧ TablesInRange busy ∧ StoresBounded busy ∧ ListLegal busy := by
  refine ⟨?_, ⟨rfl, by decide +kernel⟩, ⟨by decide +kernel, by decide, by decide, by decide⟩, ?_, List.pairwise_singleton _ _, by decide +kernel,
    fun e he => ?_, fun i r hr hp => ⟨_, List.mem_singleton.mpr rfl, ?_⟩⟩
  · unfold LineTellsCondition; decide +kernel
  · unfold StoresBounded; decide +kernel
  · rw [List.mem_singleton.mp (show e ∈ [entry1 5 .offered] from he)]
    exact ⟨_, rfl, by decide, by decide⟩
  · have := every_record (fun i r => decide (r.period = 0) || decide (i = 1)) (by decide +kernel) i r hr
    have hi : i = 1 := by simpa [hp] using this
    rw [hi]; rfl

/-- The same state: the beam. -/
theorem test_beamInvariants_reached : BeamLegal busy ∧ StatesAgree busy ∧ OffersStand busy ∧ SelectionDone busy := by
  have states := every_record (s := busy) (fun i r => match r.state with
    | .queued => decide (i = 2) | .suspended => decide (i = 3) | .active _ => decide (i = 1) | .dormant => true) (by decide +kernel)
  refine ⟨⟨(fun h => by cases h), rfl, by decide, by decide, rfl⟩, ⟨?_, ?_, ?_, ?_, fun i r hr hs => ?_, fun i r hr hs => ?_, fun i r st hr hs => ?_, ?_, ?_⟩,
    ?_, (fun h => by cases h), ?_, by decide, by decide, by decide⟩
  · intro e he
    rw [List.mem_singleton.mp (show e ∈ [({ request := askedFor 2 .station 4, arrival := 1 } : QueueEntry)] from he)]
    exact ⟨_, rfl, rfl⟩
  · intro q hq
    rw [List.mem_singleton.mp (show q ∈ [askedFor 3 .pendant 5] from hq)]
    exact ⟨_, rfl, rfl⟩
  · intro c hc; cases hc; exact ⟨_, rfl, rfl⟩
  · intro g c hg hc; cases hg; cases hc; exact ⟨rfl, rfl⟩
  · have slot := states i r hr
    rw [hs] at slot
    rw [show i = 2 from of_decide_eq_true slot]
    exact ⟨_, List.mem_singleton.mpr rfl, rfl⟩
  · have slot := states i r hr
    rw [hs] at slot
    rw [show i = 3 from of_decide_eq_true slot]
    exact ⟨_, List.mem_singleton.mpr rfl, rfl⟩
  · have slot := states i r hr
    rw [hs] at slot
    rw [show i = 1 from of_decide_eq_true slot]
    exact ⟨_, rfl, rfl⟩
  · decide
  · decide
  · intro e he _
    rw [List.mem_singleton.mp (show e ∈ [entry1 5 .offered] from he)]
    exact Or.inr ⟨_, rfl, rfl, rfl⟩
  · intro g hg; cases hg; decide

end Sys2Proof.Tests
end

