-- ==== Sys2Proof/Proofs/TargetRecords.lean ====
section
/-! The target records of chapter 1: what TAKE makes of the record it names, and what the pendant is answered about it afterwards (R17, R196). -/

namespace Sys2Proof.Machine

variable (s : State)

/-! ### A record written in its slot -/

@[simp] theorem recordAt_withRecord_self (h : Handle) (r : Record) : (s.withRecord h r).recordAt h.slot = some r := by
  simp [State.withRecord, State.recordAt]

@[simp] theorem arbiter_withRecord (h : Handle) (r : Record) : (s.withRecord h r).arbiter = s.arbiter := rfl

@[simp] theorem arbiter_answeredBy (i : Instr) (x : Response) (t : State) : (answeredBy s i x t).arbiter = t.arbiter := rfl

@[simp] theorem live_atRise (i : Instr) (h : Handle) : (s.atRise i).live h = s.live h := rfl

/-- A command that writes one record leaves answeredBy of the state with that record. -/
theorem respond_withRecord_atRise (i : Instr) (x : Response) (h : Handle) (r : Record) :
    ((s.atRise i).withRecord h r).respond x = answeredBy s i x (s.withRecord h r) := rfl

/-! ### Answers and handles -/

@[simp] theorem bare_eq (a : Answer) : bare s a = (s, noPayload a) := rfl

/-- A request whose handle passes its checks is taken with the record named (R2, R9). -/
theorem onRecord_ok {h : Handle} {r : Record} (take : Handle → Record → State × Response) : s.onRecord (.ok (h, r)) take = take h r := rfl

/-! ### TAKE (R17) -/

/-- TAKE is a station command, with no scheduler's pass after it. -/
theorem exec_take (slot gen : Byte) : exec (.take slot gen) s = s.station (.take slot gen) (takeTake slot gen) := rfl

variable {s} {slot gen : Byte} {h : Handle} {r : Record}

/-- TAKE of a STATION-owned record changes nothing. -/
theorem takeTake_already (ok : s.lookup slot gen = .ok (h, r)) (owned : r.owner = .station) :
    takeTake slot gen s = (s, noPayload .already) := by
  rw [takeTake, ok, onRecord_ok, if_pos owned, bare_eq]

/-- TAKE of any other record writes its owner and nothing else. -/
theorem takeTake_taken (ok : s.lookup slot gen = .ok (h, r)) (owned : r.owner ≠ .station) :
    takeTake slot gen s = (s.withRecord h { r with owner := .station }, noPayload .ok) := by
  have live : s.live h = some r := (lookup_ok s ok).1
  rw [takeTake, ok, onRecord_ok, if_neg owned, modifyRecord_live s _ live, bare_eq]

/-- TAKE of a STATION-owned record, as a whole event. -/
theorem exec_take_already (up : s.resetnLow = false) (ok : s.lookup slot gen = .ok (h, r)) (owned : r.owner = .station) :
    exec (.take slot gen) s = .next (answeredBy s (.take slot gen) (noPayload .already) s) := by
  rw [exec_take, station_high s _ _ up, takeTake_already (by rwa [lookup_atRise]) owned, respond_atRise]

/-- TAKE of any other record, as a whole event. -/
theorem exec_take_taken (up : s.resetnLow = false) (ok : s.lookup slot gen = .ok (h, r)) (owned : r.owner ≠ .station) :
    exec (.take slot gen) s =
      .next (answeredBy s (.take slot gen) (noPayload .ok) (s.withRecord h { r with owner := .station })) := by
  rw [exec_take, station_high s _ _ up, takeTake_taken (by rwa [lookup_atRise]) owned, respond_withRecord_atRise]

/-! ### The pendant's checks on a record it does not own (R196) -/

/-- An offset that names a record with another owner is refused OWNER, whatever generation was reported. -/
theorem pendantLookup_owner {offset : Byte} {i : Fin 48} (check : Bool) (named : s.offsetSlot offset = some i) (held : s.recordAt i = some r)
    (owned : r.owner ≠ .pendant) : s.pendantLookup offset check = .error .owner := by
  simp [State.pendantLookup, named, held, owned]

end Sys2Proof.Machine

open Sys2Proof Sys2Proof.Machine

/-- Settles O19: TAKE does not depend on the owner it finds, and writes nothing but the owner, on which the pendant's check 3 of R196 turns. -/
theorem takeMakesStationOwned : Obligations.TakeMakesStationOwned := by
  intro s slot gen h r up ok
  refine ⟨exec_take_already up ok, fun owned => ⟨_, exec_take_taken up ok owned, rfl, fun offset check named => ?_, by simp⟩⟩
  have held : (answeredBy s (.take slot gen) (noPayload .ok) (s.withRecord h { r with owner := .station })).recordAt h.slot
      = some { r with owner := .station } := by simp
  exact pendantLookup_owner check named held Owner.noConfusion

end

