-- ==== Sys2Proof/Proofs/ReflectorClasses.lean ====
section
/-! The class table of chapter 2: how a class number is read, and what CLASS-ENTRY in its read form answers (R29). -/

namespace Sys2Proof.Machine

/-! ### Class numbers -/

/-- A byte that spells the number of a class names that class. -/
theorem classOfByte_eq_some {b : Byte} {c : Fin 8} (named : c.val = b.toNat) : classOfByte b = some c := by
  have small : b.toNat < 8 := named ▸ c.isLt
  rw [classOfByte, dif_pos small]
  exact congrArg some (Fin.ext named.symm)

/-- A byte above 7 names no class. -/
theorem classOfByte_eq_none {b : Byte} (above : 7 < b.toNat) : classOfByte b = none := by
  rw [classOfByte, dif_neg (by omega)]

/-! ### CLASS-ENTRY, read form (R29) -/

variable (s : State)

/-- CLASS-ENTRY in its read form is a station command, with no scheduler's pass after it. -/
theorem exec_classEntryRead (cls : Byte) : exec (.classEntryRead cls) s = s.station (.classEntryRead cls) (takeClassEntryRead cls) := rfl

/-- A read of a class answers with its entry and changes nothing. -/
theorem takeClassEntryRead_named {cls : Byte} {c : Fin 8} (named : c.val = cls.toNat) :
    takeClassEntryRead cls s = (s, okPayload (classPayload s.classes[c.val])) := by
  rw [takeClassEntryRead, classOfByte_eq_some named]; rfl

/-- A read of a class above 7 changes nothing. -/
theorem takeClassEntryRead_above {cls : Byte} (above : 7 < cls.toNat) : takeClassEntryRead cls s = (s, noPayload .range) := by
  rw [takeClassEntryRead, classOfByte_eq_none above, bare_eq]

variable {s} {cls : Byte}

/-- A read of a class, as a whole event. -/
theorem exec_classEntryRead_named (up : s.resetnLow = false) {c : Fin 8} (named : c.val = cls.toNat) :
    exec (.classEntryRead cls) s = .next (answeredBy s (.classEntryRead cls) (okPayload (classPayload s.classes[c.val])) s) := by
  have unchanged : (s.atRise (.classEntryRead cls)).classes = s.classes := rfl
  rw [exec_classEntryRead, station_high s _ _ up, takeClassEntryRead_named _ named, respond_atRise, unchanged]

/-- A read of a class above 7, as a whole event. -/
theorem exec_classEntryRead_above (up : s.resetnLow = false) (above : 7 < cls.toNat) :
    exec (.classEntryRead cls) s = .next (answeredBy s (.classEntryRead cls) (noPayload .range) s) := by
  rw [exec_classEntryRead, station_high s _ _ up, takeClassEntryRead_above _ above, respond_atRise]

end Sys2Proof.Machine

open Sys2Proof Sys2Proof.Machine

/-- Settles O22: whether the byte names a class decides the answer, and the entry answered is the one that stood before the event, which the transaction
leaves as it was. -/
theorem classEntryReadReturns : Obligations.ClassEntryReadReturns := by
  intro s cls up
  exact ⟨fun _ named => exec_classEntryRead_named up named, exec_classEntryRead_above up⟩

end

