-- ==== Sys2Proof/Proofs/PursuitAndLock.lean ====
section
/-! The pursuit unit of chapter 3: how a detector frame reaches it, what a search start leaves, and the frame that loses the target in CENTRING
(R44, R47, R52, R68, R122). -/

namespace Sys2Proof.Machine

variable (s : State)

/-! ### A frame on its way to the pursuit unit (R122, R124) -/

/-- A frame is an event of an instrument, with the scheduler's passes after it. -/
theorem exec_detectorFrame (f : Frame) : exec (.detectorFrame f) s = s.ownEvent (·.takeFrame f) := rfl

/-- The port's check of a frame is that of R122. -/
theorem passes_iff (f : Frame) : Frame.passes f = true ↔ FrameGood f := by
  simp [Frame.passes, FrameGood, spotInRange, and_assoc]

/-- Counting a frame writes the frame rejects and the expected frame number and nothing else. -/
@[simp] theorem countFrame_fields (f : Frame) :
    (s.countFrame f).resetnLow = s.resetnLow ∧ (s.countFrame f).table = s.table ∧ (s.countFrame f).classes = s.classes
      ∧ (s.countFrame f).pursuit = s.pursuit ∧ (s.countFrame f).arbiter = s.arbiter ∧ (s.countFrame f).scheduler = s.scheduler
      ∧ (s.countFrame f).time = s.time ∧ (s.countFrame f).sweep = s.sweep ∧ (s.countFrame f).link = s.link
      ∧ (s.countFrame f).pendant = s.pendant ∧ (s.countFrame f).pending = s.pending := by
  refine ⟨?_, ?_, ?_, ?_, ?_, ?_, ?_, ?_, ?_, ?_, ?_⟩ <;> rfl

/-- Counting a frame reads and writes nothing of what an event clears at its beginning. -/
theorem countFrame_quiet (f : Frame) : s.quiet.countFrame f = (s.countFrame f).quiet := rfl

variable {s} {g : Request} {c : Context} {r : Record}

/-- The beam serves its record at the beginning of an event as it did before. -/
theorem Pursuing.quiet (serves : Pursuing s g c r) : Pursuing s.quiet g c r :=
  ⟨serves.up, serves.calm, serves.running, serves.grant, serves.context, serves.target, serves.origin, serves.record⟩

/-- The beam serves its record after a frame is counted as it did before. -/
theorem Pursuing.countFrame (serves : Pursuing s g c r) (f : Frame) : Pursuing (s.countFrame f) g c r :=
  ⟨serves.up, serves.calm, serves.running, serves.grant, serves.context, serves.target, serves.origin, serves.record⟩

/-- A good frame that comes while the beam serves a record is counted and passed on. -/
theorem Pursuing.takeFrame {f : Frame} (serves : Pursuing s g c r) (good : FrameGood f) :
    s.takeFrame f = (s.countFrame f).pursuitFrame f := by
  have passed : Frame.passes f = true ∧ (s.countFrame f).arbiter.grant.isSome = true ∧ (s.countFrame f).arbiter.runMode = .running := by
    simp [passes_iff, good, serves.grant, serves.running]
  rw [State.takeFrame, if_pos passed]

/-- A frame that finds the pursuit in CENTRING is judged as R51 and R52 say. -/
theorem Pursuing.pursuitFrame_centring {f : Frame} (serves : Pursuing s g c r) (stage : c.stage = .centring) :
    s.pursuitFrame f = s.centringFrame c r f := by
  simp only [State.pursuitFrame, serves.context, serves.record, stage]

/-- A good frame while the beam serves a record, as a whole event, where what the pursuit unit makes of it leaves the scheduler and the queue alone. -/
theorem Pursuing.exec_frame {f : Frame} {t : State} (serves : Pursuing s g c r) (good : FrameGood f)
    (judged : (s.countFrame f).quiet.pursuitFrame f = t) (calm : t.scheduler = s.scheduler) (queued : t.arbiter.queue = s.arbiter.queue) :
    exec (.detectorFrame f) s = .next t := by
  have taken : s.quiet.takeFrame f = t := by rw [serves.quiet.takeFrame good, countFrame_quiet, judged]
  have settles : t.settle s.arbiter.queue.length = t := settle_calm t (by rw [calm, serves.calm]) (by rw [queued])
  rw [exec_detectorFrame, ownEvent_high s _ serves.up, taken, settles]

/-! ### Stages and the start of a search (R46, R68, R69) -/

/-- A new stage is written in the context and delivered to the live record. -/
theorem setStage_live (st : Stage) (live : s.live c.target = some r) :
    s.setStage c st = (s.setContext (some { c with stage := st })).withRecord c.target { r with state := .active st } :=
  modifyRecord_live (s.setContext (some { c with stage := st })) _ live

/-- The first waypoint of ring 1 stands one ring step to the right of the centre. -/
theorem azimuthOffset_first (ringStep : Nat) : azimuthOffset ringStep 1 0 = ringStep := by
  have whole : cosTurn 1 0 = trigScale := rfl
  rw [azimuthOffset, whole, Nat.one_mul]
  exact Int.mul_tdiv_cancel _ (by decide)

/-- The first waypoint of ring 1 stands level with the centre. -/
theorem elevationOffset_first (ringStep : Nat) : elevationOffset ringStep 1 0 = 0 := by
  have level : sinTurn 1 0 = 0 := rfl
  rw [elevationOffset, level, Int.mul_zero, Int.zero_tdiv]

/-- Where a search that starts slews to first. -/
theorem newSearch_waypoint (r : Record) (centre : Direction) :
    (s.newSearch r centre).waypoint =
      { azimuth := normAzimuth (centre.azimuth + s.classes[r.cls.val].ringStep), elevation := centre.elevation } := by
  have first : (s.newSearch r centre).waypoint =
      { azimuth := normAzimuth (centre.azimuth + azimuthOffset s.classes[r.cls.val].ringStep 1 0)
        elevation := centre.elevation + elevationOffset s.classes[r.cls.val].ringStep 1 0 } := rfl
  rw [first, azimuthOffset_first, elevationOffset_first, Int.add_zero]

/-- A search started for a live record, in an event that has sent nothing before it. -/
theorem startSearch_quiet (centre : Direction) (live : s.live c.target = some r) : s.quiet.startSearch c r centre = searchBegun s c r centre := by
  have live' : s.quiet.withdrawRange.live c.target = some r := live
  rw [State.startSearch, newSearch_waypoint]
  dsimp only
  rw [setStage_live (r := r), modifyRecord_live _ _ (live_withRecord _ _ _), withRecord_withRecord]
  · rfl
  · exact live'

/-! ### The frame that loses the target in CENTRING (R44, R52) -/

/-- A frame has a return where its intensity is at least the minimum of the class. -/
theorem hasReturn_iff (f : Frame) : s.hasReturn r f = true ↔ s.classes[r.cls.val].minIntensity ≤ f.intensity := decide_eq_true_iff

/-- A direction is outside a window where a difference of either axis exceeds the half-width. -/
theorem insideWindow_eq_false {d centre : Direction} {w : Nat}
    (outside : w < (azimuthDifference d centre).natAbs ∨ w < (elevationDifference d centre).natAbs) : insideWindow d centre w = false := by
  simpa [insideWindow, withinSquare, imp_iff_not_or] using outside

/-- A frame without a return, or whose return is outside the window on the last captured direction, is judged lost. -/
theorem centring_lost {f : Frame} {captured : Direction}
    (lost : f.intensity < s.classes[r.cls.val].minIntensity ∨ insideWindow (returnDirection f) captured (s.effectiveWindow r) = false) :
    s.centring r captured f = .lost := by
  rw [State.centring]
  by_cases returned : s.hasReturn r f = true
  · have outside := lost.resolve_left (Nat.not_lt.mpr ((hasReturn_iff f).mp returned))
    simp [returned, outside]
  · simp [returned]

/-- A frame judged lost in CENTRING starts a search at the last captured direction. -/
theorem centringFrame_lost {f : Frame} {captured : Direction} (last : c.lastCaptured = some captured) (lost : s.centring r captured f = .lost) :
    s.centringFrame c r f = s.startSearch c r captured := by
  have centre : c.captured = captured := by rw [Context.captured, last, Option.getD_some]
  rw [State.centringFrame, centre, lost]

end Sys2Proof.Machine

open Sys2Proof Sys2Proof.Machine

/-- Settles O43: the frame is counted and judged lost by the matcher, and the search start it makes leaves the queue and the scheduler as they stood, so that
no offer pass follows. -/
theorem centringLostStartsSearch : Obligations.CentringLostStartsSearch := by
  intro s f g c r captured serves good stage last back cls window missed
  have counted : Pursuing (s.countFrame f) g c r := serves.countFrame f
  have lost : (s.countFrame f).quiet.centring r captured f = .lost := centring_lost (missed.imp_right insideWindow_eq_false)
  refine serves.exec_frame good ?_ rfl rfl
  calc (s.countFrame f).quiet.pursuitFrame f
      _ = (s.countFrame f).quiet.centringFrame c r f := counted.quiet.pursuitFrame_centring stage
      _ = (s.countFrame f).quiet.startSearch c r captured := centringFrame_lost last lost
      _ = searchBegun (s.countFrame f) c r captured := startSearch_quiet captured counted.record

end

