-- ==== Sys2Proof/Proofs/NoticesAndCounters.lean ====
section
/-! The notice unit of chapter 7: what NOTICE-CONTROL answers in its read form, and what it writes and how the notice line then stands in its write form
(R148, R149, R190). -/

namespace Sys2Proof.Machine

/-! ### The bytes of the master enable and of the device mask (R148, R190) -/

/-- The byte that shows a flag reads back as that flag. -/
@[simp] theorem onOffOf_flagByte (on : Bool) : onOffOf (flagByte on) = some on := by cases on <;> rfl

/-- A byte above 1 says neither on nor off. -/
theorem onOffOf_eq_none {b : Byte} (above : 1 < b.toNat) : onOffOf b = none := by
  have notOn : b ≠ 1#8 := by rintro rfl; exact absurd above (by decide)
  have notOff : b ≠ 0#8 := by rintro rfl; exact absurd above (by decide)
  rw [onOffOf, if_neg notOn, if_neg notOff]

/-- A byte that spells a device mask is cut to that mask. -/
theorem setWidth_eq_of_toNat_eq {d : BitVec 7} {dm : Byte} (spelt : d.toNat = dm.toNat) : dm.setWidth 7 = d :=
  BitVec.eq_of_toNat_eq (by rw [BitVec.toNat_setWidth, ← spelt, Nat.mod_eq_of_lt d.isLt])

variable (s : State)

/-! ### NOTICE-CONTROL, read form (R148) -/

/-- NOTICE-CONTROL in its read form answers the values held at the start of the event and changes nothing. -/
theorem exec_noticeControlRead (up : s.resetnLow = false) :
    exec .noticeControlRead s = .next (answeredBy s .noticeControlRead
      (okPayload [s.notices.recordMask, s.notices.deviceMask.setWidth 8, flagByte s.notices.master]) s) := by
  have unfolded : exec .noticeControlRead s = execNoticeControlRead s := rfl
  have held : (s.atRise .noticeControlRead).notices = s.notices := rfl
  rw [unfolded, execNoticeControlRead, station_high s _ _ up, answered, held, ← respond_atRise, okPayload]

/-! ### NOTICE-CONTROL, write form (R148, R149, R190) -/

/-- NOTICE-CONTROL in its write form is a station command, with no scheduler's pass after it. -/
theorem exec_noticeControlWrite (rm dm m : Byte) :
    exec (.noticeControlWrite rm dm m) s = s.station (.noticeControlWrite rm dm m) (takeNoticeControlWrite rm dm m) := rfl

/-- A write changes the two masks, the master enable and the line, and leaves every pending set as it stands; the line it leaves is judged on the values
written, over those sets (R149). -/
theorem writeMasks_eq (rm : BitVec 8) (d : BitVec 7) (on : Bool) :
    s.writeMasks rm d on = { s with notices := { s.notices with
      recordMask := rm, deviceMask := d, master := on
      line := on && (decide (s.notices.device &&& ~~~d ≠ 0#7) || allSlots.any (s.writeMasks rm d on).slotPending) } } := rfl

/-- A command that writes the masks leaves answeredBy of the state with those masks. -/
theorem respond_writeMasks_atRise (i : Instr) (x : Response) (rm : BitVec 8) (d : BitVec 7) (on : Bool) :
    ((s.atRise i).writeMasks rm d on).respond x = answeredBy s i x (s.writeMasks rm d on) := rfl

/-- A device mask that names a kind above 6, or a master byte that is neither 0 nor 1, writes nothing. -/
theorem takeNoticeControlWrite_range {rm dm m : Byte} (outside : 128 ≤ dm.toNat ∨ 1 < m.toNat) :
    takeNoticeControlWrite rm dm m s = (s, noPayload .range) := by
  rw [takeNoticeControlWrite]
  rcases outside with wide | above
  · cases onOffOf m with
    | none => rfl
    | some on => simp only [if_pos wide, bare_eq]
  · rw [onOffOf_eq_none above]
    rfl

/-- Values in range are compared with those held, and written where one of them differs. -/
theorem takeNoticeControlWrite_inRange (rm : Byte) {dm : Byte} {d : BitVec 7} (on : Bool) (spelt : d.toNat = dm.toNat) :
    takeNoticeControlWrite rm dm (flagByte on) s =
      if rm = s.notices.recordMask ∧ d = s.notices.deviceMask ∧ on = s.notices.master then (s, noPayload .already)
      else (s.writeMasks rm d on, noPayload .ok) := by
  have narrow : ¬128 ≤ dm.toNat := by have := d.isLt; omega
  simp only [takeNoticeControlWrite, onOffOf_flagByte, if_neg narrow, setWidth_eq_of_toNat_eq spelt, bare_eq]

variable {s} {rm dm m : Byte} {d : BitVec 7} {on : Bool}

/-- A write refused RANGE, as a whole event. -/
theorem exec_noticeControlWrite_range (up : s.resetnLow = false) (outside : 128 ≤ dm.toNat ∨ 1 < m.toNat) :
    exec (.noticeControlWrite rm dm m) s = .next (answeredBy s (.noticeControlWrite rm dm m) (noPayload .range) s) := by
  rw [exec_noticeControlWrite, station_high s _ _ up, takeNoticeControlWrite_range _ outside, respond_atRise]

/-- A write of the values held, as a whole event. -/
theorem exec_noticeControlWrite_already (up : s.resetnLow = false) (spelt : d.toNat = dm.toNat)
    (same : rm = s.notices.recordMask ∧ d = s.notices.deviceMask ∧ on = s.notices.master) :
    exec (.noticeControlWrite rm dm (flagByte on)) s =
      .next (answeredBy s (.noticeControlWrite rm dm (flagByte on)) (noPayload .already) s) := by
  have held : (s.atRise (.noticeControlWrite rm dm (flagByte on))).notices = s.notices := rfl
  rw [exec_noticeControlWrite, station_high s _ _ up, takeNoticeControlWrite_inRange _ rm on spelt, held, if_pos same, respond_atRise]

/-- A write that changes a value, as a whole event. -/
theorem exec_noticeControlWrite_written (up : s.resetnLow = false) (spelt : d.toNat = dm.toNat)
    (changed : ¬(rm = s.notices.recordMask ∧ d = s.notices.deviceMask ∧ on = s.notices.master)) :
    exec (.noticeControlWrite rm dm (flagByte on)) s =
      .next (answeredBy s (.noticeControlWrite rm dm (flagByte on)) (noPayload .ok) (s.writeMasks rm d on)) := by
  have held : (s.atRise (.noticeControlWrite rm dm (flagByte on))).notices = s.notices := rfl
  rw [exec_noticeControlWrite, station_high s _ _ up, takeNoticeControlWrite_inRange _ rm on spelt, held, if_neg changed,
    respond_writeMasks_atRise]

end Sys2Proof.Machine

open Sys2Proof Sys2Proof.Machine

/-- Settles O36: the read answers the values held; of a write the range of its bytes decides first, then whether it changes a value held, and what it leaves
is the state with the values written and the line judged on them. -/
theorem noticeControlReadsAndWrites : Obligations.NoticeControlReadsAndWrites := by
  intro s rm dm m up
  refine ⟨exec_noticeControlRead s up, exec_noticeControlWrite_range up, fun d on spelt master => ?_⟩
  obtain rfl : m = flagByte on := master
  refine ⟨fun records devices enable => exec_noticeControlWrite_already up spelt ⟨records, devices, enable⟩, fun changed => ?_⟩
  rw [exec_noticeControlWrite_written up spelt changed, writeMasks_eq]
  rfl

end

