-- ==== Sys2Proof/Proofs/StationLink.lean ====
section
/-! The station link of chapter 9: what a read transaction shifts out, and when it consumes the pending response (R176, R177). -/

namespace Sys2Proof.Machine

/-! ### The first byte of a response (R181) -/

/-- No answer has the code 0x00, which SDO shifts out where no response stands. -/
theorem answerCode_ne_zero (a : Answer) : answerCode a ≠ 0#8 := by cases a <;> decide

/-- A response begins with the code of its answer. -/
@[simp] theorem head?_bytes (r : Response) : r.bytes.head? = some (answerCode r.status) := rfl

theorem head?_bytes_ne_zero (r : Response) : r.bytes.head? ≠ some 0#8 := by
  simpa using answerCode_ne_zero r.status

/-! ### The link at the end of a read (R177) -/

/-- Whether a response is pending and n bytes are enough to shift it out whole; endRead_whole and endRead_short say that this is what the rise of SCS
judges. -/
def readWhole (response : Option Response) (n : Nat) : Bool := response.any fun r => decide (r.bytes.length ≤ n)

@[simp] theorem readWhole_none (n : Nat) : readWhole none n = false := rfl

@[simp] theorem readWhole_some (r : Response) (n : Nat) : readWhole (some r) n = decide (r.bytes.length ≤ n) := rfl

/-- The link after a read that clocks in 0x00 and the bytes of rest: exec_readTransaction_high says that this is what a read makes of it. -/
def StationLink.afterRead (l : StationLink) (rest : List Byte) : StationLink :=
  { received := (0#8 :: rest).take 34
    more := decide (34 < rest.length + 1)
    response := if readWhole l.response (rest.length + 1) then none else l.response
    ready := if readWhole l.response (rest.length + 1) then false else l.ready
    sdo := sdoBits l.response (8 * (rest.length + 1))
    sdoNext := sdoStream l.response (rest.length + 1) }

section
variable {l : StationLink} {rest : List Byte}

/-- Eight bits stand on SDO for each byte clocked in. -/
@[simp] theorem afterRead_sdo_length : (l.afterRead rest).sdo.length = 8 * (rest.length + 1) := sdoBits_length _ _

/-- While a byte is clocked in, the byte of the response at its place is shifted out, most significant bit first. -/
theorem afterRead_sdo_bit {r : Response} (pending : l.response = some r) {n b : Nat} (byte : n ≤ rest.length) (bit : b < 8) :
    (l.afterRead rest).sdo[8 * n + b]? = some ((r.bytes.getD n 0).getMsbD b) := by
  have clocked : 8 * n + b < 8 * (rest.length + 1) := by omega
  rw [StationLink.afterRead, sdoBits_bit _ bit clocked, pending]
  rfl

theorem afterRead_sdoNext {r : Response} (pending : l.response = some r) :
    (l.afterRead rest).sdoNext = r.bytes.getD (rest.length + 1) 0 := by
  rw [StationLink.afterRead, pending]
  rfl

/-- A response shifted out whole is consumed, and READY falls. -/
theorem afterRead_consumed (whole : readWhole l.response (rest.length + 1) = true) :
    (l.afterRead rest).response = none ∧ (l.afterRead rest).ready = false := by
  simp [StationLink.afterRead, whole]

/-- Without a response shifted out whole, what was pending and READY stay. -/
theorem afterRead_kept (short : readWhole l.response (rest.length + 1) = false) :
    (l.afterRead rest).response = l.response ∧ (l.afterRead rest).ready = l.ready := by
  simp [StationLink.afterRead, short]

/-- With no response pending only 0x00 is shifted out. -/
theorem afterRead_sdo_none (absent : l.response = none) :
    (l.afterRead rest).sdo = List.replicate (8 * (rest.length + 1)) false ∧ (l.afterRead rest).sdoNext = 0 := by
  rw [StationLink.afterRead, absent]
  exact ⟨sdoBits_none _, rfl⟩

/-- Of the bytes after the first only their number counts, but that the buffer holds them. -/
theorem afterRead_of_length_eq {rest' : List Byte} (same : rest'.length = rest.length) :
    { l.afterRead rest' with received := (l.afterRead rest).received } = l.afterRead rest := by
  simp only [StationLink.afterRead, same]

end

/-! ### READ_TRANSACTION as an event (R177) -/

variable (s : State)

/-- At the rise of SCS a response shifted out whole is dropped. -/
theorem endRead_whole {n : Nat} (whole : readWhole s.link.response n = true) : s.endRead n = s.dropResponse := by
  cases pending : s.link.response with
  | none => simp [pending] at whole
  | some r =>
    have fits : r.bytes.length ≤ n := by simpa [pending] using whole
    simp [State.endRead, pending, fits]

/-- Without a response shifted out whole the rise of SCS changes nothing. -/
theorem endRead_short {n : Nat} (short : readWhole s.link.response n = false) : s.endRead n = s := by
  cases pending : s.link.response with
  | none => simp [State.endRead, pending]
  | some r =>
    have longer : n < r.bytes.length := by simpa [pending] using short
    simp [State.endRead, pending, longer]

/-- READ_TRANSACTION is clocked, and then judged by its bytes at the rise of SCS. -/
theorem exec_readTransaction (rest : List Byte) (up : s.resetnLow = false) :
    exec (.readTransaction rest) s = .next ((s.quiet.transact (.readTransaction rest)).endRead (rest.length + 1)) := by
  have unfolded : exec (.readTransaction rest) s = execReadTransaction rest s := rfl
  rw [unfolded, execReadTransaction, whenUp_high _ _ _ up]

/-- The clocking of a read changes the link alone, and leaves the response and READY to the rise of SCS. -/
theorem transact_readTransaction (rest : List Byte) :
    s.quiet.transact (.readTransaction rest) = { sentNothing s with link :=
      { received := (0#8 :: rest).take 34, more := decide (34 < rest.length + 1), response := s.link.response, ready := s.link.ready
        sdo := sdoBits s.link.response (8 * (rest.length + 1)), sdoNext := sdoStream s.link.response (rest.length + 1) } } := by
  have clocks : clocksOf (.readTransaction rest) = 8 * (rest.length + 1) := rfl
  have bytes : 8 * (rest.length + 1) / 8 = rest.length + 1 := by omega
  rw [State.transact, clocks, State.clock, State.shiftOut, bytes]
  rfl

/-- A read with RESETN high changes the link and sends nothing to an instrument. -/
theorem exec_readTransaction_high (rest : List Byte) (up : s.resetnLow = false) :
    exec (.readTransaction rest) s = .next { sentNothing s with link := s.link.afterRead rest } := by
  rw [exec_readTransaction s rest up]
  cases whole : readWhole s.link.response (rest.length + 1) with
  | false =>
    rw [endRead_short (s.quiet.transact (.readTransaction rest)) whole, transact_readTransaction]
    simp only [StationLink.afterRead, whole]
    rfl
  | true =>
    rw [endRead_whole (s.quiet.transact (.readTransaction rest)) whole, transact_readTransaction]
    simp only [StationLink.afterRead, whole]
    rfl

end Sys2Proof.Machine

open Sys2Proof Sys2Proof.Machine

/-- Settles O6: every clause is read off the one link that a read leaves, in which the response is judged by its length against the bytes clocked in, and of
those bytes only their number and the buffer show. -/
theorem readFetchesResponse : Obligations.ReadFetchesResponse := by
  intro s rest up
  refine ⟨_, exec_readTransaction_high s rest up, afterRead_sdo_length, fun r pending => ?_, fun absent => ?_, fun rest' same => ?_, rfl⟩
  · refine ⟨fun n b byte bit => afterRead_sdo_bit pending byte bit, afterRead_sdoNext pending, head?_bytes_ne_zero r,
      fun fits => afterRead_consumed (by simpa [pending] using fits), fun longer => ?_⟩
    obtain ⟨response, ready⟩ := afterRead_kept (l := s.link) (rest := rest) (by simpa [pending] using longer)
    exact ⟨response.trans pending, ready⟩
  · obtain ⟨bits, next⟩ := afterRead_sdo_none (rest := rest) absent
    obtain ⟨response, ready⟩ := afterRead_kept (l := s.link) (rest := rest) (by rw [absent, readWhole_none])
    exact ⟨bits, next, response.trans absent, ready⟩
  · refine ⟨_, exec_readTransaction_high s rest' up, ?_⟩
    rw [afterRead_of_length_eq same]

end

section
/-! What every command keeps of the records, of the notice line, of the tables, of the stores and of the revisit list. One lemma for each operation says that
it keeps them (Keeps); the lemmas on the commands put these together, and the statements on every step are read off them. -/

namespace Sys2Proof.Machine

/-! ### What is kept -/

/-- The first of the statements on every step: HOME, the windows, and the fit of every record's fields. -/
def TableFits (s : State) : Prop := HomeStays s ∧ WindowsLegal s ∧ RecordsLegal s

/-- The second of them without the station link and the revisit list: the NOTICE line, the tables and the stores. -/
def LinesFit (s : State) : Prop := LineTellsCondition s ∧ TablesInRange s ∧ StoresBounded s ∧ ListLegal s

/-- From s to t the properties that every step keeps are kept, and the station link and the queue of commands are left alone. -/
structure Keeps (s t : State) : Prop where
  table : TableFits s → TableFits t
  lines : LinesFit s → LinesFit t
  list : ListLegal s → ListLegal t
  link : t.link = s.link
  pending : t.pending = s.pending

theorem Keeps.refl (s : State) : Keeps s s := ⟨id, id, id, rfl, rfl⟩

theorem Keeps.trans {s t u : State} (a : Keeps s t) (b : Keeps t u) : Keeps s u :=
  ⟨b.table ∘ a.table, b.lines ∘ a.lines, b.list ∘ a.list, b.link.trans a.link, b.pending.trans a.pending⟩

/-- A conditional keeps what both branches keep. -/
theorem Keeps.ite {s a b : State} {c : Prop} [Decidable c] (ha : Keeps s a) (hb : Keeps s b) : Keeps s (if c then a else b) := by
  split <;> assumption

/-! ### What the properties depend on -/

section
variable {s t : State}

theorem SameRecords.generation (same : SameRecords s t) (i : Fin 48) : (t.slotAt i).generation = (s.slotAt i).generation := (same i).1

/-- A record after is one before with the same setup. -/
theorem SameRecords.back (same : SameRecords s t) {i : Fin 48} {r : Record} (held : t.recordAt i = some r) :
    ∃ r', s.recordAt i = some r' ∧ r'.setup = r.setup := by
  have := (same i).2
  rw [held] at this
  cases h : s.recordAt i with
  | none => simp [h] at this
  | some r' => exact ⟨r', rfl, by simpa [h] using this.symm⟩

/-- A record before has one after with the same setup. -/
theorem SameRecords.forth (same : SameRecords s t) {i : Fin 48} {r : Record} (held : s.recordAt i = some r) :
    ∃ r', t.recordAt i = some r' ∧ r'.setup = r.setup := by
  have := (same i).2
  rw [held] at this
  cases h : t.recordAt i with
  | none => simp [h] at this
  | some r' => exact ⟨r', rfl, by simpa [h] using this⟩

/-- A live record has one after with the same setup. -/
theorem SameRecords.live (same : SameRecords s t) {h : Handle} {r : Record} (held : s.live h = some r) :
    ∃ r', t.live h = some r' ∧ r'.setup = r.setup := by
  rw [live_eq_some] at held
  obtain ⟨r', held', setup⟩ := same.forth held.2
  exact ⟨r', by rw [live_eq_some]; exact ⟨(same.generation _).trans held.1, held'⟩, setup⟩

theorem setup_kind {r r' : Record} (h : r'.setup = r.setup) : r'.kind = r.kind := congrArg RecordSetup.kind h
theorem setup_owner {r r' : Record} (h : r'.setup = r.setup) : r'.owner = r.owner := congrArg RecordSetup.owner h
theorem setup_period {r r' : Record} (h : r'.setup = r.setup) : r'.period = r.period := congrArg RecordSetup.period h

theorem HomeStays.of_same (home : HomeStays s) (same : SameRecords s t) : HomeStays t := by
  obtain ⟨generation, ⟨r, held, kind, owner⟩, others⟩ := home
  refine ⟨(same.generation 0).trans generation, ?_, fun i r ne held => ?_⟩
  · obtain ⟨r', held', setup⟩ := same.forth held
    exact ⟨r', held', (setup_kind setup).trans kind, (setup_owner setup).trans owner⟩
  · obtain ⟨r', held', setup⟩ := same.back held
    exact setup_kind setup ▸ others i r' ne held'

theorem WindowsLegal.of_same (legal : WindowsLegal s) (same : SameRecords s t) (station : t.table.stationWindow = s.table.stationWindow)
    (pendant : t.table.pendantWindow = s.table.pendantWindow) : WindowsLegal t := by
  obtain ⟨st, pd, inside⟩ := legal
  refine ⟨station ▸ st, pendant ▸ pd, fun i r held owner => ?_⟩
  obtain ⟨r', held', setup⟩ := same.back held
  exact pendant ▸ inside i r' held' ((setup_owner setup).trans owner)

theorem ListLegal.of_same (legal : ListLegal s) (same : SameRecords s t) (entries : t.scheduler.entries = s.scheduler.entries) : ListLegal t := by
  obtain ⟨sorted, nodup, live, has⟩ := legal
  rw [ListLegal, entries]
  refine ⟨sorted, nodup, fun e he => ?_, fun i r held period => ?_⟩
  · obtain ⟨r, hl, kind, period⟩ := live e he
    obtain ⟨r', hl', setup⟩ := same.live hl
    exact ⟨r', hl', setup_kind setup ▸ kind, setup_period setup ▸ period⟩
  · obtain ⟨r', held', setup⟩ := same.back held
    obtain ⟨e, he, handle⟩ := has i r' held' (setup_period setup ▸ period)
    refine ⟨e, he, handle.trans ?_⟩
    simp [State.handleOf, same.generation]

/-- What is pending, read off the sets and the masks. -/
theorem anyPending_congr (device : t.notices.unmaskedDevice = s.notices.unmaskedDevice) (slots : ∀ i, t.slotPending i = s.slotPending i) :
    t.anyPending = s.anyPending := by
  simp only [State.anyPending, device, funext slots]

end

/-! ### Changes that leave the setup alone -/

/-- Work that keeps the setup keeps the properties where it keeps the fit of records, the line, the stores and the list. -/
theorem Keeps.of_setup {s t : State} (a : SameSetup s t) (records : RecordsLegal s → RecordsLegal t)
    (line : LineTellsCondition s → LineTellsCondition t) (stores : ListLegal s → StoresBounded s → StoresBounded t)
    (list : ListLegal s → ListLegal t) : Keeps s t where
  table := fun ⟨home, windows, legal⟩ =>
    ⟨home.of_same a.records, windows.of_same a.records a.stationWindow a.pendantWindow, records legal⟩
  lines := fun ⟨told, tables, bounded, legal⟩ =>
    ⟨line told, by rw [TablesInRange, a.priorities, a.classes]; exact tables, stores legal bounded, list legal⟩
  list := list
  link := a.link
  pending := a.pending

/-- Work that writes no record, no notice and no revisit entry. -/
theorem Keeps.plain {s t : State} (a : SameSetup s t) (table : t.table = s.table) (notices : t.notices = s.notices)
    (entries : t.scheduler.entries = s.scheduler.entries) : Keeps s t := by
  have records : ∀ i, t.recordAt i = s.recordAt i := fun i => by simp [State.recordAt, State.slotAt, table]
  have slots : ∀ i, t.slotPending i = s.slotPending i := fun i => by simp only [State.slotPending, records, notices]
  refine .of_setup a (fun legal i r held => legal i r (records i ▸ held)) (fun told => ?_) (fun _ bounded => ?_)
    (fun legal => legal.of_same a.records entries)
  · rw [LineTellsCondition, notices, anyPending_congr (by rw [notices]) slots]; exact told
  · rw [StoresBounded, entries, notices, a.pendant]; exact bounded

/-- The line judged tells the condition. -/
theorem lineTells_judgeLine (s : State) : LineTellsCondition s.judgeLine := rfl

variable (s : State)

/-- A slot has something pending where its record has an unmasked kind pending. -/
theorem slotPending_eq (i : Fin 48) : s.slotPending i = (s.recordAt i).any fun r => decide (s.notices.unmaskedRecord r ≠ 0#8) := by
  unfold State.slotPending
  cases s.recordAt i <;> rfl

/-- The record of a slot after a change delivered under a handle. -/
theorem recordAt_modifyRecord (h : Handle) (f : Record → Record) (i : Fin 48) :
    (s.modifyRecord h f).recordAt i =
      if h.slot = i ∧ (s.slotAt i).generation = h.generation then (s.recordAt i).map f else s.recordAt i := by
  rw [State.recordAt, slotAt_modifyRecord]
  split <;> rfl

/-- A change delivered to a record that keeps its setup, its notices and the fit of its fields. -/
theorem Keeps.modify (h : Handle) (f : Record → Record) (setup : ∀ r, (f r).setup = r.setup) (notices : ∀ r, (f r).notices = r.notices)
    (legal : ∀ r, s.live h = some r → r.Legal → (f r).Legal) : Keeps s (s.modifyRecord h f) := by
  have a := modifyRecord_setup s h f setup
  refine .of_setup a (fun fits i r held => ?_) (fun told => ?_) (fun _ bounded => ?_) (fun list => list.of_same a.records (by simp))
  · rw [State.recordAt, slotAt_modifyRecord] at held
    split at held
    · rename_i named
      obtain ⟨rfl, generation⟩ := named
      obtain ⟨r', held', rfl⟩ := Option.map_eq_some_iff.mp held
      exact legal r' ((live_eq_some s).mpr ⟨generation, held'⟩) (fits _ r' held')
    · exact fits i r held
  · have slots : ∀ i, (s.modifyRecord h f).slotPending i = s.slotPending i := fun i => by
      rw [slotPending_eq, slotPending_eq, recordAt_modifyRecord]
      split
      · cases s.recordAt i with
        | none => rfl
        | some r => exact decide_eq_decide.mpr (by simp [NoticeUnit.unmaskedRecord, notices])
      · simp
    rw [LineTellsCondition, anyPending_congr (by simp) slots, (modifyRecord_fields s h f).2.2.2.2.2.2.2.1]
    exact told
  · simpa [StoresBounded] using bounded

/-- A change to a record's course, after work that keeps the rest: nothing is written that its setup, its notices or the fit of its fields speaks of. -/
theorem Keeps.course {s t : State} (a : Keeps s t) {h : Handle} {f : Record → Record} (setup : ∀ r, (f r).setup = r.setup)
    (notices : ∀ r, (f r).notices = r.notices) (legal : ∀ r : Record, r.Legal → (f r).Legal) : Keeps s (t.modifyRecord h f) :=
  a.trans (.modify t h f setup notices fun r _ => legal r)

/-- The line judged after work that keeps the rest. -/
theorem Keeps.judged {s t : State} (a : SameSetup s t) (records : RecordsLegal s → RecordsLegal t)
    (stores : ListLegal s → StoresBounded s → StoresBounded t) (list : ListLegal s → ListLegal t) : Keeps s t.judgeLine :=
  .of_setup (a.trans (judgeLine_setup t)) records (fun _ => lineTells_judgeLine t) stores list

theorem judgeLine_keeps : Keeps s s.judgeLine := .judged (SameSetup.refl s) id (fun _ h => h) id

theorem setDeviceNotice_keeps (k : DeviceNotice) : Keeps s (s.setDeviceNotice k) :=
  .of_setup (setDeviceNotice_setup s k) id (fun _ => lineTells_judgeLine _) (fun _ h => h) id

theorem setRecordNotice_keeps (k : RecordNotice) (h : Handle) : Keeps s (s.setRecordNotice k h) := by
  have a := modifyRecord_setup s h (fun r => { r with notices := r.notices ||| recordBit k }) fun _ => rfl
  refine .judged a (fun fits i r held => ?_) (fun _ bounded => ?_) (fun list => list.of_same a.records (by simp))
  · rw [State.recordAt, slotAt_modifyRecord] at held
    split at held
    · obtain ⟨r', held', rfl⟩ := Option.map_eq_some_iff.mp held
      exact fits i r' held'
    · exact fits i r held
  · simpa [StoresBounded] using bounded

theorem satAdd_le (limit count n : Nat) : satAdd limit count n ≤ limit := Nat.min_le_left _ _

theorem countFalseReturn_keeps : Keeps s s.countFalseReturn := by
  have noted : Keeps s (if s.notices.falseReturns = 0 then s.setDeviceNotice .falseReturn else s) :=
    .ite (setDeviceNotice_keeps s _) (.refl s)
  refine noted.trans (.of_setup ?_ id id (fun _ ⟨a, b, _, c⟩ => ⟨a, b, satAdd_le _ _ _, c⟩) id)
  exact ⟨rfl, rfl, rfl, rfl, rfl, rfl, rfl, rfl, rfl, rfl, rfl, rfl, rfl, rfl, rfl, rfl, fun _ => ⟨rfl, rfl⟩⟩

theorem countRangeFailure_keeps : Keeps s s.countRangeFailure :=
  .of_setup (countRangeFailure_setup s) id id (fun _ ⟨a, b, c, _, d⟩ => ⟨a, b, c, satAdd_le _ _ _, d⟩) id

/-! ### The revisit list -/

/-- Statuses written in the list. -/
theorem setStatuses_keeps (g : RevisitEntry → RevisitStatus) :
    Keeps s (s.setEntries (s.scheduler.entries.map fun e => { e with status := g e })) := by
  refine .of_setup (setEntries_setup s _) id id (fun _ bounded => by simpa [StoresBounded] using bounded) ?_
  rintro ⟨sorted, nodup, live, has⟩
  refine ⟨?_, ?_, fun e he => ?_, fun i r held period => ?_⟩
  · exact List.pairwise_map.mpr (sorted.imp fun h => h)
  · simpa [List.map_map, Function.comp_def] using nodup
  · obtain ⟨e', he', rfl⟩ := List.mem_map.mp he
    exact live e' he'
  · obtain ⟨e, he, handle⟩ := has i r held period
    exact ⟨_, List.mem_map.mpr ⟨e, he, rfl⟩, handle⟩

theorem setEntryStatus_keeps (i : Fin 48) (st : RevisitStatus) : Keeps s (s.setEntryStatus i st) := by
  have e : s.setEntryStatus i st =
      s.setEntries (s.scheduler.entries.map fun e => { e with status := if e.handle.slot = i then st else e.status }) := by
    unfold State.setEntryStatus
    congr 1
    refine List.map_congr_left fun e _ => ?_
    split <;> rfl
  rw [e]
  exact setStatuses_keeps s _

/-- The entry found for a slot is an entry of the list for that slot. -/
theorem entryAt_eq_some {i : Fin 48} {e : RevisitEntry} (h : s.entryAt i = some e) : e ∈ s.scheduler.entries ∧ e.handle.slot = i := by
  have := List.find?_some h
  exact ⟨List.mem_of_find?_eq_some h, by simpa using this⟩

/-- An entry of the list is found for its slot, where no slot has two. -/
theorem entryAt_of_mem {e : RevisitEntry} (nodup : (s.scheduler.entries.map (·.handle.slot)).Nodup) (he : e ∈ s.scheduler.entries) :
    s.entryAt e.handle.slot = some e := by
  unfold State.entryAt
  generalize s.scheduler.entries = l at nodup he
  induction l with
  | nil => cases he
  | cons x xs ih =>
    simp only [List.map_cons, List.nodup_cons, List.mem_map, not_exists, not_and] at nodup
    rcases List.mem_cons.mp he with rfl | he
    · simp
    · have : x.handle.slot ≠ e.handle.slot := fun hc => nodup.1 e he hc.symm
      simp [this, ih nodup.2 he]

theorem mem_withoutEntry {i : Fin 48} {l : List RevisitEntry} {e : RevisitEntry} : e ∈ withoutEntry i l ↔ e ∈ l ∧ e.handle.slot ≠ i := by
  simp [withoutEntry]

theorem withoutEntry_sublist (i : Fin 48) (l : List RevisitEntry) : (withoutEntry i l).Sublist l := List.filter_sublist

/-- Taking out an entry that stands shortens the list. -/
theorem length_withoutEntry_lt {i : Fin 48} {l : List RevisitEntry} {e : RevisitEntry} (he : e ∈ l) (hs : e.handle.slot = i) :
    (withoutEntry i l).length < l.length := by
  refine List.length_filter_lt_length_iff_exists.mpr ⟨e, he, by simp [hs]⟩

/-- The slots of a list with an entry placed are those of the others and its own. -/
theorem insertEntry_slots_nodup {e : RevisitEntry} {l : List RevisitEntry} (fresh : ∀ y ∈ l, y.handle.slot ≠ e.handle.slot)
    (nodup : (l.map (·.handle.slot)).Nodup) : ((insertEntry e l).map (·.handle.slot)).Nodup := by
  obtain ⟨before, later, placed, rfl, -, -⟩ := insertEntry_splits e l
  rw [placed, List.perm_middle.map _ |>.nodup_iff, List.map_cons, List.nodup_cons]
  exact ⟨fun hm => by obtain ⟨y, hy, same⟩ := List.mem_map.mp hm; exact fresh y hy same, nodup⟩

/-- An entry placed for a live fixed record with a period leaves a list with no entry of that slot, and one for every other record with a period, legal. -/
theorem ListLegal.placeEntry {s t : State} {e : RevisitEntry} {r : Record} (legal : ListLegal s) (held : t.live e.handle = some r)
    (kind : r.kind ≠ .roving) (period : r.period ≠ 0) (entries : t.scheduler.entries = s.scheduler.entries)
    (others : ∀ i, i ≠ e.handle.slot → t.slotAt i = s.slotAt i) : ListLegal (t.placeEntry e) := by
  obtain ⟨sorted, nodup, live, has⟩ := legal
  have fresh : ∀ y ∈ withoutEntry e.handle.slot s.scheduler.entries, y.handle.slot ≠ e.handle.slot := fun y hy => (mem_withoutEntry.mp hy).2
  have placed : (t.placeEntry e).scheduler.entries = insertEntry e (withoutEntry e.handle.slot s.scheduler.entries) := by
    simp [State.placeEntry, entries]
  have record : ∀ i, (t.placeEntry e).recordAt i = t.recordAt i := fun _ => rfl
  rw [ListLegal, placed]
  refine ⟨insertEntry_sorted fresh (sorted.sublist (withoutEntry_sublist _ _)),
    insertEntry_slots_nodup fresh (nodup.sublist ((withoutEntry_sublist _ _).map _)), fun x hx => ?_, fun i r' held' period' => ?_⟩
  · rcases mem_insertEntry.mp hx with rfl | hx
    · exact ⟨r, held, kind, period⟩
    · obtain ⟨hx, ne⟩ := mem_withoutEntry.mp hx
      obtain ⟨r', hl, fits⟩ := live x hx
      refine ⟨r', ?_, fits⟩
      rw [live_eq_some] at hl ⊢
      rw [record, State.recordAt]
      have : (t.placeEntry e).slotAt x.handle.slot = s.slotAt x.handle.slot := others _ ne
      exact ⟨by rw [this]; exact hl.1, by rw [others _ ne]; exact hl.2⟩
  · rw [live_eq_some] at held
    by_cases hi : i = e.handle.slot
    · subst hi
      refine ⟨e, mem_insertEntry.mpr (Or.inl rfl), ?_⟩
      have : (t.placeEntry e).slotAt e.handle.slot = t.slotAt e.handle.slot := rfl
      simp [State.handleOf, this, held.1]
    · have here : (t.placeEntry e).slotAt i = s.slotAt i := others i hi
      obtain ⟨x, hx, handle⟩ := has i r' (by rw [State.recordAt, ← others i hi]; exact held') period'
      have slot : x.handle.slot = i := by rw [handle]; rfl
      refine ⟨x, mem_insertEntry.mpr (Or.inr (mem_withoutEntry.mpr ⟨hx, slot ▸ hi⟩)), handle.trans ?_⟩
      simp [State.handleOf, here]

/-- A live record whose slot has an entry: the entry is the record's, which is fixed and has a period. -/
theorem ListLegal.entry {s : State} {h : Handle} {e : RevisitEntry} {r : Record} (legal : ListLegal s) (found : s.entryAt h.slot = some e)
    (held : s.live h = some r) : e.handle = h ∧ r.kind ≠ .roving ∧ r.period ≠ 0 := by
  obtain ⟨he, slot⟩ := entryAt_eq_some s found
  obtain ⟨r', hl, fits⟩ := legal.2.2.1 e he
  rw [live_eq_some] at hl held
  rw [slot] at hl
  have same : r' = r := by simpa [hl.2] using held.2
  subst same
  refine ⟨?_, fits⟩
  cases he' : e.handle
  cases h
  simp_all

/-- A due time and a status written in the entry of a live record. -/
theorem placeEntry_keeps {e : RevisitEntry} {r : Record} (stands : (s.entryAt e.handle.slot).isSome) (held : s.live e.handle = some r) :
    Keeps s (s.placeEntry e) := by
  obtain ⟨old, found⟩ := Option.isSome_iff_exists.mp stands
  refine .of_setup (setEntries_setup s _) id id (fun _ bounded => ?_) fun legal => ?_
  · obtain ⟨length, rest⟩ := bounded
    obtain ⟨he, slot⟩ := entryAt_eq_some s found
    have := length_withoutEntry_lt he slot
    exact ⟨by simp [State.placeEntry]; omega, rest⟩
  · obtain ⟨-, kind, period⟩ := legal.entry found held
    exact legal.placeEntry held kind period rfl fun _ _ => rfl

end Sys2Proof.Machine
end

section
/-! The work of the arbiter, the pursuit unit, the matcher and the scheduler keeps the properties that every step keeps: one lemma for each operation. -/

namespace Sys2Proof.Machine

variable (s : State)

/-! ### Plain updates -/

theorem setContext_keeps (c : Option Context) : Keeps s (s.setContext c) := .plain (setContext_setup s c) rfl rfl rfl
theorem setGrant_keeps (g : Option Request) : Keeps s (s.setGrant g) := .plain (setGrant_setup s g) rfl rfl rfl
theorem setQueue_keeps (q : List QueueEntry) : Keeps s (s.setQueue q) := .plain (setQueue_setup s q) rfl rfl rfl
theorem setStack_keeps (t : List Request) : Keeps s (s.setStack t) := .plain (setStack_setup s t) rfl rfl rfl
theorem setRunMode_keeps (m : RunMode) : Keeps s (s.setRunMode m) := .plain (setRunMode_setup s m) rfl rfl rfl
theorem setArrivalCounter_keeps (n : Nat) : Keeps s (s.setArrivalCounter n) := .plain (setArrivalCounter_setup s n) rfl rfl rfl
theorem setFrozen_keeps (b : Bool) : Keeps s (s.setFrozen b) := .plain (setFrozen_setup s b) rfl rfl rfl
theorem setPassWanted_keeps (b : Bool) : Keeps s (s.setPassWanted b) := .plain (setPassWanted_setup s b) rfl rfl rfl
theorem sendMove_keeps (d : Direction) : Keeps s (s.sendMove d) := .plain (sendMove_setup s d) rfl rfl rfl
theorem sendFollow_keeps (d : Direction) : Keeps s (s.sendFollow d) := .plain (sendFollow_setup s d) rfl rfl rfl
theorem sendHalt_keeps : Keeps s s.sendHalt := .plain (sendHalt_setup s) rfl rfl rfl
theorem sendRange_keeps : Keeps s s.sendRange := .plain (sendRange_setup s) rfl rfl rfl
theorem withdrawRange_keeps : Keeps s s.withdrawRange := .plain (withdrawRange_setup s) rfl rfl rfl

theorem setRecordState_keeps (h : Handle) (st : RecState) : Keeps s (s.setRecordState h st) :=
  (Keeps.refl s).course (fun _ => rfl) (fun _ => rfl) fun _ fits => fits

/-! ### The scheduler -/

theorem entryAt_congr {s t : State} (entries : t.scheduler.entries = s.scheduler.entries) (i : Fin 48) : t.entryAt i = s.entryAt i := by
  rw [State.entryAt, entries, State.entryAt]

theorem toDormant_keeps (h : Handle) (o : EndOutcome) : Keeps s (s.toDormant h o) := by
  have m : Keeps s (s.modifyRecord h fun r => { r with state := .dormant, outcome := o }) :=
    (Keeps.refl s).course (fun _ => rfl) (fun _ => rfl) fun _ fits => fits
  unfold State.toDormant
  dsimp only
  split
  · exact m.trans (.ite (setPassWanted_keeps _ _) (.refl _))
  · exact m

/-- A due time written in the entry of a live record. -/
theorem scheduleAfter_keeps {h : Handle} {r' : Record} (r : Record) (t : Time) (stands : (s.entryAt h.slot).isSome) (held : s.live h = some r') :
    Keeps s (s.scheduleAfter h r t) :=
  placeEntry_keeps (e := { handle := h, due := t + timeOfPeriod r.period, status := .scheduled }) s stands held

/-- A miss of a record that has an entry. -/
theorem miss_keeps (h : Handle) (stands : (s.entryAt h.slot).isSome) : Keeps s (s.miss h) := by
  unfold State.miss
  split
  · rename_i r held
    have m : Keeps s (s.modifyRecord h fun r => { r with missCount := satAdd 15 r.missCount 1 }) :=
      (Keeps.refl s).course (fun _ => rfl) (fun _ => rfl) fun _ fits => fits
    have noted := live_modifyRecord _ (fun r => { r with notices := r.notices ||| recordBit .miss })
      (live_modifyRecord s (fun r => { r with missCount := satAdd 15 r.missCount 1 }) held)
    refine (m.trans (setRecordNotice_keeps _ .miss h)).trans (scheduleAfter_keeps _ _ _ ?_ noted)
    rw [entryAt_congr (s := s)]
    · exact stands
    · simp [State.setRecordNotice]
  · exact .refl s

theorem revisitReport_keeps (h : Handle) (o : EndOutcome) : Keeps s (s.revisitReport h o) := by
  unfold State.revisitReport
  split
  · exact .refl s
  · rename_i e found
    have stands : (s.entryAt h.slot).isSome := by simp [found]
    split
    · split
      · exact miss_keeps s h stands
      · exact miss_keeps s h stands
      · split
        · rename_i r held
          exact scheduleAfter_keeps s r _ stands held
        · exact .refl s
      · exact setEntryStatus_keeps s _ _
      · exact .refl s
    · exact .refl s

theorem reportEnd_keeps (q : Request) (o : EndOutcome) : Keeps s (s.reportEnd q o) := by
  unfold State.reportEnd
  split
  · exact .ite (revisitReport_keeps s _ _) ((revisitReport_keeps s _ _).trans (setPassWanted_keeps _ _))
  · have noted : Keeps s (if o = .done ∧ s.driftOut q.handle = true then s.setDeviceNotice .home else s) :=
      .ite (setDeviceNotice_keeps s _) (.refl s)
    exact .ite noted (noted.trans (setPassWanted_keeps _ _))
  · exact .refl s
  · exact .refl s

theorem satisfyRevisit_keeps (h : Handle) (f : Fix) : Keeps s (s.satisfyRevisit h f) := by
  unfold State.satisfyRevisit
  split
  · rename_i e r found held
    have m : Keeps s (s.modifyRecord h fun r => { r with missCount := 0 }) := (Keeps.refl s).course (fun _ => rfl) (fun _ => rfl) fun _ fits => fits
    refine m.trans (scheduleAfter_keeps _ _ _ ?_ (live_modifyRecord s _ held))
    rw [entryAt_congr (s := s) (by simp), found]
    rfl
  · exact .refl s

theorem driftCheck_keeps (h : Handle) (f : Fix) : Keeps s (s.driftCheck h f) := by
  unfold State.driftCheck
  split
  · exact .refl s
  · rename_i r held
    split
    · exact .refl s
    · rename_i ref surveyed
      have m (d : Deviation) (new : DriftState) : Keeps s (s.modifyRecord h fun r => { r with lastDeviation := some d, drift := new }) := by
        refine .modify s h _ (fun _ => rfl) (fun _ => rfl) fun r' held' fits => ?_
        obtain rfl : r' = r := by simpa [held'] using held
        obtain ⟨roving, rest⟩ := fits
        exact ⟨fun kind => absurd (roving kind).1 (by simp [surveyed]), rest⟩
      dsimp only
      exact .ite ((m _ _).trans (setRecordNotice_keeps _ _ _)) (m _ _)

theorem fixToScheduler_keeps (h : Handle) (f : Fix) : Keeps s (s.fixToScheduler h f) :=
  (satisfyRevisit_keeps s h f).trans (driftCheck_keeps _ h f)

/-! ### The arbiter -/

theorem enqueue_keeps (q : Request) : Keeps s (s.enqueue q) := by
  unfold State.enqueue State.makeEntry
  refine Keeps.trans (t := if s.arbiter.arrivalCounter = 65535
    then (s.setQueue (renumber s.arbiter.queue)).setArrivalCounter s.arbiter.queue.length else s) ?_ ?_
  · exact .ite ((setQueue_keeps s _).trans (setArrivalCounter_keeps _ _)) (.refl s)
  · exact ((setQueue_keeps _ _).trans (setArrivalCounter_keeps _ _)).trans (setRecordState_keeps _ _ _)

theorem startSlew_keeps (q : Request) (d : Direction) : Keeps s (s.startSlew q d) :=
  (((setGrant_keeps s _).trans (setContext_keeps _ _)).trans (sendMove_keeps _ _)).trans (setRecordState_keeps _ _ _)

theorem endPursuit_keeps (b : Bool) : Keeps s (s.endPursuit b) := by
  unfold State.endPursuit
  split
  · exact .refl s
  · have e := (setContext_keeps s none).trans (withdrawRange_keeps _)
    exact .ite (e.course (fun _ => rfl) (fun _ => rfl) fun _ fits => fits) e

theorem closeRequest_keeps (q : Request) (o : EndOutcome) : Keeps s (s.closeRequest q o) := by
  have c := ((setGrant_keeps s none).trans (toDormant_keeps _ q.handle o)).trans (reportEnd_keeps _ q o)
  exact .ite (c.trans (setDeviceNotice_keeps _ _)) c

theorem lostAtGrant_keeps (q : Request) : Keeps s (s.lostAtGrant q) := (setRecordNotice_keeps s _ _).trans (closeRequest_keeps _ _ _)

theorem loseEntry_keeps (e : QueueEntry) : Keeps s (s.loseEntry e) := (setQueue_keeps s _).trans (setPassWanted_keeps _ _)

/-- A selection takes its winner off the top of the stack or out of the queue. -/
theorem pickWinner_cases {q : Request} {t : State} (picked : s.pickWinner = some (q, t)) :
    (∃ rest, s.arbiter.stack = q :: rest ∧ t = s.setStack rest ∧ ∀ e, bestEntry s.arbiter.queue = some e → e.request.priority ≤ q.priority)
      ∨ ∃ e, bestEntry s.arbiter.queue = some e ∧ e.request = q ∧ t = s.loseEntry e
          ∧ ∀ x, s.arbiter.stack.head? = some x → x.priority < q.priority := by
  unfold State.pickWinner at picked
  split at picked
  · cases picked
  · rename_i top rest hs hb
    cases picked
    exact Or.inl ⟨rest, hs, rfl, by simp [hb]⟩
  · rename_i e hs hb
    cases picked
    exact Or.inr ⟨e, hb, rfl, rfl, by simp [hs]⟩
  · rename_i top rest e hs hb
    split at picked <;> rename_i order <;> cases picked
    · exact Or.inl ⟨rest, hs, rfl, by simp [hb, order]⟩
    · exact Or.inr ⟨e, hb, rfl, rfl, by simp [hs]; omega⟩

theorem pickWinner_keeps {q : Request} {t : State} (picked : s.pickWinner = some (q, t)) : Keeps s t := by
  obtain ⟨rest, -, rfl, -⟩ | ⟨e, -, -, rfl, -⟩ := pickWinner_cases s picked
  · exact setStack_keeps s _
  · exact loseEntry_keeps s _

theorem selectLoop_keeps (n : Nat) : ∀ (halt : Bool) (s : State), Keeps s (selectLoop n halt s) := by
  induction n with
  | zero => exact fun halt s => .ite (sendHalt_keeps s) (.refl s)
  | succ n ih =>
    intro halt s
    unfold selectLoop
    split
    · exact .ite (sendHalt_keeps s) (.refl s)
    · rename_i q t picked
      split
      · exact (pickWinner_keeps s picked).trans (startSlew_keeps _ _ _)
      · exact ((pickWinner_keeps s picked).trans (lostAtGrant_keeps _ _)).trans (ih _ _)

theorem select_keeps (halt : Bool) : Keeps s (s.select halt) := .ite (selectLoop_keeps _ _ _) (.refl s)

theorem grantTo_keeps (q : Request) : Keeps s (s.grantTo q) := by
  unfold State.grantTo
  split
  · exact startSlew_keeps s _ _
  · exact (lostAtGrant_keeps s _).trans (select_keeps _ _)

theorem pushStack_keeps (q : Request) : Keeps s (s.pushStack q) := by
  unfold State.pushStack
  refine Keeps.trans (t := match s.arbiter.stack[3]? with
    | some bottom => ((s.setStack (s.arbiter.stack.take 3)).toDormant bottom.handle .dropped).setRecordNotice .drop bottom.handle
    | none => s) ?_ ((setStack_keeps _ _).trans (setRecordState_keeps _ _ _))
  split
  · exact ((setStack_keeps s _).trans (toDormant_keeps _ _ _)).trans (setRecordNotice_keeps _ _ _)
  · exact .refl s

theorem dispose_keeps (g : Request) : Keeps s (s.dispose g) := by
  unfold State.dispose
  have p : Keeps s (if s.autoResumeOf g.handle = true then (s.pushStack g).setPassWanted true
      else ((s.toDormant g.handle .preempted).setRecordNotice .drop g.handle).setPassWanted true) :=
    .ite ((pushStack_keeps s g).trans (setPassWanted_keeps _ _))
      (((toDormant_keeps s _ _).trans (setRecordNotice_keeps _ _ _)).trans (setPassWanted_keeps _ _))
  split
  · exact enqueue_keeps s g
  · exact enqueue_keeps s g
  · exact p
  · exact p

theorem preempt_keeps (g : Request) (e : QueueEntry) : Keeps s (s.preempt g e) :=
  ((((setQueue_keeps s _).trans (endPursuit_keeps _ _)).trans (setGrant_keeps _ _)).trans (dispose_keeps _ _)).trans (grantTo_keeps _ _)

theorem preemptionTest_keeps : Keeps s s.preemptionTest := by
  unfold State.preemptionTest
  split
  · exact .ite (preempt_keeps s _ _) (.refl s)
  · exact .refl s

theorem arbitrate_keeps : Keeps s s.arbitrate := .ite (select_keeps s _) (preemptionTest_keeps s)

theorem pursuitEnds_keeps (o : EndOutcome) : Keeps s (s.pursuitEnds o) := by
  unfold State.pursuitEnds
  split
  · exact .refl s
  · exact ((endPursuit_keeps s _).trans (closeRequest_keeps _ _ _)).trans (select_keeps _ _)

theorem pursuitLost_keeps : Keeps s s.pursuitLost := by
  unfold State.pursuitLost
  split
  · exact .refl s
  · exact (setRecordNotice_keeps s _ _).trans (pursuitEnds_keeps _ _)

theorem releaseRecord_keeps (h : Handle) (r : Record) : Keeps s (s.releaseRecord h r).1 := by
  unfold State.releaseRecord
  split
  · exact .refl s
  · split
    · exact ((setQueue_keeps s _).trans (toDormant_keeps _ _ _)).trans (reportEnd_keeps _ _ _)
    · exact toDormant_keeps s _ _
  · split
    · exact ((setStack_keeps s _).trans (toDormant_keeps _ _ _)).trans (reportEnd_keeps _ _ _)
    · exact toDormant_keeps s _ _
  · split
    · exact ((((endPursuit_keeps s _).trans (setGrant_keeps _ _)).trans (toDormant_keeps _ _ _)).trans (reportEnd_keeps _ _ _)).trans
        (select_keeps _ _)
    · exact toDormant_keeps s _ _

theorem reportRemoval_keeps (q : Option Request) : Keeps s (s.reportRemoval q) := by
  unfold State.reportRemoval
  split
  · exact .ite (setPassWanted_keeps s _) (.refl s)
  · exact .refl s

/-- Records made DORMANT one after the other. -/
theorem foldl_toDormant_keeps {α : Type} (handle : α → Handle) (o : EndOutcome) (l : List α) :
    ∀ s : State, Keeps s (l.foldl (fun s e => s.toDormant (handle e) o) s) := by
  induction l with
  | nil => exact .refl
  | cons e rest ih => exact fun s => (toDormant_keeps s _ _).trans (ih _)

theorem removePendantEntries_keeps (claimed : Handle → Bool) : Keeps s (s.removePendantEntries claimed) :=
  (setQueue_keeps s _).trans (foldl_toDormant_keeps (fun e : QueueEntry => e.request.handle) _ _ _)

theorem pursueRecord_keeps (h : Handle) (r : Record) (o : Origin) (p : Nat) (a : Option Direction) : Keeps s (s.pursueRecord h r o p a).1 := by
  unfold State.pursueRecord
  split
  · split
    · exact .refl s
    · split
      · exact .refl s
      · exact (enqueue_keeps s _).trans (arbitrate_keeps _)
  · exact (setQueue_keeps s _).trans (preemptionTest_keeps _)
  · exact setStack_keeps s _
  · exact .refl s

/-- What a revisit offer comes to: it is refused and changes nothing, or it is taken and enters the queue (R87). -/
theorem takeOffer_cases (h : Handle) :
    (∃ a, a ≠ .ok ∧ s.takeOffer h = (s, a))
      ∨ ∃ r, s.arbiter.runMode = .running ∧ s.live h = some r ∧ r.state = .dormant ∧ r.position.isSome ∧ s.arbiter.queue.length < 12
          ∧ s.takeOffer h = (((s.setEntryStatus h.slot .offered).enqueue
              { handle := h, origin := .revisit, priority := s.arbiter.priorities.revisit, aim := none }).arbitrate, .ok) := by
  unfold State.takeOffer
  split
  · exact Or.inl ⟨_, by decide, rfl⟩
  · rename_i mode
    split
    · exact Or.inl ⟨_, by decide, rfl⟩
    · rename_i r held
      split
      · exact Or.inl ⟨_, by decide, rfl⟩
      · rename_i state
        split
        · exact Or.inl ⟨_, by decide, rfl⟩
        · rename_i position
          split
          · exact Or.inl ⟨_, by decide, rfl⟩
          · rename_i room
            refine Or.inr ⟨r, ?_, held, by simpa using state, by simpa [Option.isSome_iff_ne_none] using position,
              by simpa [State.queueFull] using room, rfl⟩
            cases h : s.arbiter.runMode <;> simp_all

theorem takeOffer_keeps (h : Handle) : Keeps s (s.takeOffer h).1 := by
  obtain ⟨a, -, refused⟩ | ⟨r, -, -, -, -, -, taken⟩ := takeOffer_cases s h
  · rw [refused]; exact .refl s
  · rw [taken]; exact ((setEntryStatus_keeps s _ _).trans (enqueue_keeps _ _)).trans (arbitrate_keeps _)

/-- What a pass offers has an entry that is DUE, and a DORMANT record (R110). -/
theorem offerable_eq_some {i : Fin 48} {h : Handle} (offered : s.offerable i = some h) :
    ∃ e r, s.entryAt i = some e ∧ e.status = .due ∧ e.handle = h ∧ h.slot = i ∧ s.live h = some r ∧ r.state = .dormant := by
  unfold State.offerable at offered
  split at offered
  · rename_i e found
    split at offered
    · rename_i due
      split at offered
      · rename_i r held
        split at offered
        · rename_i dormant
          cases offered
          exact ⟨e, r, found, due, rfl, (entryAt_eq_some s found).2, held, dormant⟩
        · cases offered
      · cases offered
    · cases offered
  · cases offered

/-- An offer that finds no position changes nothing. -/
theorem takeOffer_of_ne_ok {h : Handle} {t : State} {a : Answer} (answer : s.takeOffer h = (t, a)) (refused : a ≠ .ok) : t = s := by
  obtain ⟨b, -, same⟩ | ⟨_, -, -, -, -, -, taken⟩ := takeOffer_cases s h
  · rw [same] at answer; exact (Prod.mk.inj answer).1.symm
  · rw [taken] at answer; exact absurd (Prod.mk.inj answer).2.symm refused

theorem offerWalk_keeps (l : List (Fin 48)) : ∀ s, Keeps s (offerWalk l s) := by
  induction l with
  | nil => exact .refl
  | cons i rest ih =>
    intro s
    unfold offerWalk
    split
    · exact ih s
    · rename_i h offered
      have o := takeOffer_keeps s h
      split <;> rename_i answer <;> rw [answer] at o
      · exact o
      · exact o
      · obtain rfl := takeOffer_of_ne_ok s answer (by decide)
        obtain ⟨e, r, found, -, -, slot, -, -⟩ := offerable_eq_some _ offered
        exact (miss_keeps _ h (by simp [slot, found])).trans (ih _)
      · exact o.trans (ih _)

theorem passLoop_keeps (n : Nat) : ∀ s, Keeps s (passLoop n s) := by
  induction n with
  | zero => exact fun s => setPassWanted_keeps s _
  | succ n ih =>
    intro s
    unfold passLoop
    have p := (setPassWanted_keeps s false).trans (offerWalk_keeps (s.setPassWanted false).dueSlots _)
    exact .ite (Keeps.trans (.ite (p.trans (setPassWanted_keeps _ _)) p) (ih _)) (setPassWanted_keeps s _)

theorem settle_keeps (count : Nat) : Keeps s (s.settle count) :=
  Keeps.trans (t := if s.arbiter.queue.length < count then s.setPassWanted true else s) (.ite (setPassWanted_keeps s _) (.refl s))
    (passLoop_keeps _ _)

/-! ### The pursuit unit and the matcher -/

theorem deliverVerdict_keeps (h : Handle) (v : Verdict) : Keeps s (s.deliverVerdict h v) := by
  unfold State.deliverVerdict
  split
  · refine Keeps.trans ?_ (setRecordNotice_keeps _ _ _)
    exact (Keeps.refl s).course (fun _ => rfl) (fun _ => rfl) fun _ fits => fits
  · exact countFalseReturn_keeps s
  · exact .refl s
  · exact .refl s

theorem setStage_keeps (c : Context) (st : Stage) : Keeps s (s.setStage c st) := (setContext_keeps s _).trans (setRecordState_keeps _ _ _)

theorem startSearch_keeps (c : Context) (r : Record) (d : Direction) : Keeps s (s.startSearch c r d) := by
  unfold State.startSearch
  dsimp only
  refine Keeps.trans ?_ (sendMove_keeps _ _)
  exact ((withdrawRange_keeps s).trans (setStage_keeps _ _ _)).course (fun _ => rfl) (fun _ => rfl) fun _ fits => fits

theorem capture_keeps (c : Context) (f : Frame) : Keeps s (s.capture c f) := (setStage_keeps s _ _).trans (sendFollow_keeps _ _)

theorem sendRangeFor_keeps (c : Context) : Keeps s (s.sendRangeFor c) := (setContext_keeps s _).trans (sendRange_keeps _)

theorem enterRanging_keeps (c : Context) : Keeps s (s.enterRanging c) := (setRecordState_keeps s _ _).trans (sendRangeFor_keeps _ _)

theorem centringFrame_keeps (c : Context) (r : Record) (f : Frame) : Keeps s (s.centringFrame c r f) := by
  unfold State.centringFrame
  split
  · exact startSearch_keeps s _ _ _
  · exact (setContext_keeps s _).trans (sendFollow_keeps _ _)
  · exact .ite ((sendFollow_keeps s _).trans (enterRanging_keeps _ _)) ((sendFollow_keeps s _).trans (setContext_keeps _ _))

/-- A fix written for a live record. -/
theorem tableWritesFix_keeps {h : Handle} {r : Record} (f : Fix) (held : s.live h = some r) : Keeps s (s.tableWritesFix h r f) := by
  unfold State.tableWritesFix
  have m : Keeps s (s.modifyRecord h fun r' => r'.writeFix f (if r.isFixed = true then none else motionOf r.fix f)) := by
    refine .modify s h _ (fun _ => rfl) (fun _ => rfl) fun r' held' fits => ?_
    obtain rfl : r' = r := by simpa [held'] using held
    obtain ⟨roving, -, -, rest⟩ := fits
    refine ⟨roving, fun kind => ?_, fun _ => rfl, rest⟩
    have fixed : r'.isFixed = true := decide_eq_true kind
    simp [Record.writeFix, fixed]
  have w := m.trans (setRecordNotice_keeps _ .fix h)
  exact .ite (w.trans (setRecordNotice_keeps _ _ _)) w

theorem deliverFix_keeps (h : Handle) (f : Fix) : Keeps s (s.deliverFix h f) := by
  unfold State.deliverFix
  split
  · exact .refl s
  · rename_i r held
    have w : Keeps s (if r.hold = true ∧ r.fixPending = true then s.modifyRecord h fun r => { r with fixOverrun := true }
        else s.tableWritesFix h r f) := by
      split
      · rename_i full
        refine .modify s h _ (fun _ => rfl) (fun _ => rfl) fun r' held' fits => ?_
        obtain rfl : r' = r := by simpa [held'] using held
        obtain ⟨roving, motion, -, rest⟩ := fits
        exact ⟨roving, motion, fun _ => full.2, rest⟩
      · exact tableWritesFix_keeps s f held
    exact .ite (w.trans (fixToScheduler_keeps _ _ _)) w

theorem lockedReading_keeps (c : Context) (r : Record) (distance : Nat) : Keeps s (s.lockedReading c r distance) := by
  unfold State.lockedReading
  have d := (setContext_keeps s (some { c with rangeInFlight := false, pendingMark := none })).trans
    (deliverFix_keeps _ c.target (s.composeFix c r distance))
  dsimp only
  split
  · exact d.trans (pursuitEnds_keeps _ _)
  · exact d.trans (pursuitEnds_keeps _ _)
  · exact .ite (d.trans (sendRangeFor_keeps _ _)) (d.trans (setContext_keeps _ _))
  · exact .ite (d.trans (sendRangeFor_keeps _ _)) (d.trans (setContext_keeps _ _))

theorem enterLocked_keeps (c : Context) (r : Record) (distance : Nat) : Keeps s (s.enterLocked c r distance) :=
  ((setRecordState_keeps s _ _).trans (setRecordNotice_keeps _ _ _)).trans (lockedReading_keeps _ _ _ _)

theorem rangingFails_keeps (c : Context) (r : Record) : Keeps s (s.rangingFails c r) :=
  (countRangeFailure_keeps s).trans (startSearch_keeps _ _ _ _)

theorem pursuitReading_keeps (distance : Nat) : Keeps s (s.pursuitReading distance) := by
  unfold State.pursuitReading
  split
  · exact .refl s
  · split
    · exact .refl s
    · split
      · unfold State.rangingReading
        exact .ite (sendRangeFor_keeps s _) (.ite (enterLocked_keeps s _ _ _) (.ite (sendRangeFor_keeps s _) (rangingFails_keeps s _ _)))
      · exact lockedReading_keeps s _ _ _
      · exact .refl s

theorem pursuitFail_keeps : Keeps s s.pursuitFail := by
  unfold State.pursuitFail
  split
  · exact .refl s
  · split
    · exact .refl s
    · split
      · exact rangingFails_keeps s _ _
      · exact (countRangeFailure_keeps s).trans (sendRangeFor_keeps _ _)
      · exact .refl s

theorem huntingFrame_keeps (c : Context) (r : Record) (inside : Bool) (f : Frame) : Keeps s (s.huntingFrame c r inside f) := by
  unfold State.huntingFrame
  split
  · exact capture_keeps s _ _
  · exact deliverVerdict_keeps s _ _

theorem coastingFrame_keeps (c : Context) (r : Record) (f : Frame) : Keeps s (s.coastingFrame c r f) := by
  unfold State.coastingFrame
  dsimp only
  split
  · exact capture_keeps s _ _
  · exact (deliverVerdict_keeps s _ _).trans (sendFollow_keeps _ _)

theorem breakLock_keeps (c : Context) (r : Record) : Keeps s (s.breakLock c r) := by
  unfold State.breakLock
  dsimp only
  refine Keeps.trans ?_ (setRecordNotice_keeps _ _ _)
  exact ((withdrawRange_keeps s).trans (setStage_keeps _ _ _)).course (fun _ => rfl) (fun _ => rfl) fun _ fits => fits

theorem lockedFrame_keeps (c : Context) (r : Record) (f : Frame) : Keeps s (s.lockedFrame c r f) := by
  unfold State.lockedFrame
  refine .ite ?_ (breakLock_keeps s _ _)
  exact (Keeps.trans (.ite (setRecordNotice_keeps s _ _) (.refl s)) (setContext_keeps _ _)).trans (sendFollow_keeps _ _)

theorem pursuitFrame_keeps (f : Frame) : Keeps s (s.pursuitFrame f) := by
  unfold State.pursuitFrame
  split
  · exact .refl s
  · split
    · exact .refl s
    · split
      · exact huntingFrame_keeps s _ _ _ _
      · exact huntingFrame_keeps s _ _ _ _
      · exact coastingFrame_keeps s _ _ _
      · exact centringFrame_keeps s _ _ _
      · exact .ite ((setContext_keeps s _).trans (sendFollow_keeps _ _)) (startSearch_keeps s _ _ _)
      · exact lockedFrame_keeps s _ _ _

theorem waypointReached_keeps (c : Context) (search : Search) : Keeps s (s.waypointReached c search) := by
  unfold State.waypointReached
  split
  · exact (setContext_keeps s _).trans (sendMove_keeps _ _)
  · exact (setContext_keeps s _).trans (pursuitLost_keeps _)

theorem pursuitArrived_keeps : Keeps s s.pursuitArrived := by
  unfold State.pursuitArrived
  split
  · exact .refl s
  · refine .ite ?_ (.refl s)
    split
    · exact startSearch_keeps s _ _ _
    · exact waypointReached_keeps s _ _
    · exact .refl s

theorem takeCoastExpiry_keeps : Keeps s s.takeCoastExpiry := by
  unfold State.takeCoastExpiry
  split
  · exact .refl s
  · split
    · exact startSearch_keeps s _ _ _
    · exact .refl s

theorem takeFixWaitExpiry_keeps : Keeps s s.takeFixWaitExpiry := by
  unfold State.takeFixWaitExpiry
  split
  · exact .refl s
  · exact sendRangeFor_keeps s _

theorem takeDueExpiry_keeps : Keeps s s.takeDueExpiry := by
  unfold State.takeDueExpiry
  split
  · exact (setEntryStatus_keeps s _ _).trans (setPassWanted_keeps _ _)
  · exact .refl s

end Sys2Proof.Machine
end

section
/-! The station's own writes to the records, the tables and the list keep the properties that every step keeps. -/

namespace Sys2Proof.Machine

variable (s : State)

/-! ### Writes that are not the beam's -/

/-- The properties read nothing but the records and the windows, the notices, the list, the tables and the waiting frames. -/
theorem Keeps.of_eq {s t : State} (table : t.table = s.table) (notices : t.notices = s.notices) (entries : t.scheduler.entries = s.scheduler.entries)
    (classes : t.classes = s.classes) (priorities : t.arbiter.priorities = s.arbiter.priorities) (waiting : t.pendant.waiting = s.pendant.waiting)
    (link : t.link = s.link) (pending : t.pending = s.pending) : Keeps s t := by
  have slots : ∀ i, t.slotAt i = s.slotAt i := fun i => by simp [State.slotAt, table]
  have records : ∀ i, t.recordAt i = s.recordAt i := fun i => by rw [State.recordAt, slots]; rfl
  have same : SameRecords s t := fun i => ⟨by rw [slots], by rw [records]⟩
  have list : ListLegal s → ListLegal t := fun legal => legal.of_same same entries
  refine ⟨fun ⟨home, windows, legal⟩ => ⟨home.of_same same, windows.of_same same (by rw [table]) (by rw [table]), fun i r held =>
    legal i r (records i ▸ held)⟩, fun ⟨told, tables, bounded, legal⟩ => ⟨?_, ?_, ?_, list legal⟩, list, link, pending⟩
  · have pends : t.anyPending = s.anyPending := anyPending_congr (by rw [notices]) fun i => by simp only [State.slotPending, records, notices]
    rw [LineTellsCondition, notices, pends]
    exact told
  · rw [TablesInRange, classes, priorities]; exact tables
  · rw [StoresBounded, entries, waiting, notices]; exact bounded

/-- One record rewritten as a request of a client rewrites it: HOME stays HOME and no other record becomes HOME, the record becomes PENDANT-owned only
inside the pendant window, its fields still fit, its notices stand, and nothing but the list and what the properties do not read is written beside it. -/
theorem Keeps.ofRecord {s t : State} {h : Handle} {r r' : Record} (held : s.live h = some r) (slots : ∀ i, t.slotAt i = (s.withRecord h r').slotAt i)
    (home : (r'.kind = .home → r.kind = .home) ∧ (h.slot = 0 → r'.kind = r.kind))
    (owner : r'.owner = .pendant → r.owner = .pendant ∨ h.slot ≠ 0 ∧ s.table.pendantWindow.contains h.slot = true)
    (legal : r.Legal → r'.Legal) (notices : r'.notices = r.notices)
    (same : t.table.stationWindow = s.table.stationWindow ∧ t.table.pendantWindow = s.table.pendantWindow ∧ t.notices = s.notices
      ∧ t.classes = s.classes ∧ t.arbiter.priorities = s.arbiter.priorities ∧ t.pendant.waiting = s.pendant.waiting ∧ t.link = s.link
      ∧ t.pending = s.pending)
    (length : s.scheduler.entries.length ≤ 32 → t.scheduler.entries.length ≤ 32) (list : ListLegal s → ListLegal t) : Keeps s t := by
  obtain ⟨station, pendant, units, classes, priorities, waiting, link, pending⟩ := same
  obtain ⟨generation, recordAt⟩ := (live_eq_some s).mp held
  have record : ∀ i, t.recordAt i = if h.slot = i then some r' else s.recordAt i := fun i => by
    rw [State.recordAt, slots, State.withRecord, slotAt_setSlot]; split <;> rfl
  refine ⟨fun ⟨⟨zero, ⟨rh, heldh, kind, owned⟩, others⟩, ⟨st, pd, inside⟩, fits⟩ => ⟨⟨?_, ?_, ?_⟩, ⟨station ▸ st, pendant ▸ pd, ?_⟩, ?_⟩,
    fun ⟨told, tables, bounded, legal'⟩ => ⟨?_, ?_, ?_, list legal'⟩, list, link, pending⟩
  · rw [slots, State.withRecord, slotAt_setSlot]
    split
    · rename_i slot0; rw [← generation, slot0]; exact zero
    · exact zero
  · rw [record]
    split
    · rename_i slot0
      obtain rfl : rh = r := by simpa [← slot0, recordAt] using heldh.symm
      refine ⟨r', rfl, (home.2 slot0).trans kind, ?_⟩
      cases ho : r'.owner with
      | station => rfl
      | pendant =>
        rcases owner ho with old | ⟨ne, -⟩
        · rw [old] at owned; cases owned
        · exact absurd slot0 ne
    · exact ⟨rh, heldh, kind, owned⟩
  · intro i x ne held'
    rw [record] at held'
    split at held'
    · rename_i slot; cases held'
      exact fun hk => others i r ne (slot ▸ recordAt) (home.1 hk)
    · exact others i x ne held'
  · intro i x held' ho
    rw [record] at held'
    rw [pendant]
    split at held'
    · rename_i slot; cases held'
      rcases owner ho with old | ⟨-, new⟩
      · exact inside i r (slot ▸ recordAt) old
      · exact slot ▸ new
    · exact inside i x held' ho
  · intro i x held'
    rw [record] at held'
    split at held'
    · cases held'; exact legal (fits _ r recordAt)
    · exact fits i x held'
  · have pends : t.anyPending = s.anyPending := anyPending_congr (by rw [units]) fun i => by
      rw [slotPending_eq, slotPending_eq, record, units]
      split
      · rename_i slot; subst slot
        rw [recordAt]
        exact decide_eq_decide.mpr (by simp [NoticeUnit.unmaskedRecord, notices])
      · rfl
    rw [LineTellsCondition, units, pends]
    exact told
  · rw [TablesInRange, classes, priorities]; exact tables
  · obtain ⟨short, rest⟩ := bounded
    exact ⟨length short, by rw [waiting, units]; exact rest⟩

/-- A change delivered to a record that is not live is none. -/
theorem modifyRecord_none {h : Handle} (f : Record → Record) (none_ : s.live h = none) : s.modifyRecord h f = s := by
  simp [State.modifyRecord, none_]

/-- A change delivered under a handle leaves every generation. -/
theorem generation_modifyRecord (h : Handle) (f : Record → Record) (i : Fin 48) :
    ((s.modifyRecord h f).slotAt i).generation = (s.slotAt i).generation := by
  rw [slotAt_modifyRecord]; split <;> rfl

theorem handleOf_modifyRecord (h : Handle) (f : Record → Record) (i : Fin 48) : (s.modifyRecord h f).handleOf i = s.handleOf i := by
  simp [State.handleOf, generation_modifyRecord]

/-- The list stays legal where a record keeps its period and does not become ROVING. -/
theorem ListLegal.modify {s : State} (legal : ListLegal s) (h : Handle) {f : Record → Record} (period : ∀ r, (f r).period = r.period)
    (fixed : ∀ r, r.kind ≠ .roving → (f r).kind ≠ .roving) : ListLegal (s.modifyRecord h f) := by
  obtain ⟨sorted, nodup, live, has⟩ := legal
  rw [ListLegal, (modifyRecord_fields s h f).2.2.2.2.1]
  refine ⟨sorted, nodup, fun e he => ?_, fun i r held nonzero => ?_⟩
  · obtain ⟨r, hl, kind, nonzero⟩ := live e he
    obtain ⟨generation, recordAt⟩ := (live_eq_some s).mp hl
    by_cases named : h.slot = e.handle.slot ∧ (s.slotAt e.handle.slot).generation = h.generation
    · exact ⟨f r, by rw [live_eq_some, generation_modifyRecord, recordAt_modifyRecord, if_pos named, recordAt]; exact ⟨generation, rfl⟩,
        fixed r kind, by rwa [period]⟩
    · exact ⟨r, by rw [live_eq_some, generation_modifyRecord, recordAt_modifyRecord, if_neg named]; exact ⟨generation, recordAt⟩, kind, nonzero⟩
  · rw [handleOf_modifyRecord]
    rw [recordAt_modifyRecord] at held
    split at held
    · obtain ⟨r', held', rfl⟩ := Option.map_eq_some_iff.mp held
      exact has i r' held' (by rwa [period] at nonzero)
    · exact has i r held nonzero

/-- A change to a record that its owner's request makes: HOME stays HOME and no other record becomes HOME, the record becomes PENDANT-owned only inside the
pendant window, its fields still fit, and neither its notices nor its period are written, nor does a fixed record become ROVING. -/
theorem Keeps.write (h : Handle) (f : Record → Record)
    (home : ∀ r, ((f r).kind = .home → r.kind = .home) ∧ (h.slot = 0 → (f r).kind = r.kind))
    (owner : ∀ r, (f r).owner = .pendant → r.owner = .pendant ∨ h.slot ≠ 0 ∧ s.table.pendantWindow.contains h.slot = true)
    (legal : ∀ r, s.live h = some r → r.Legal → (f r).Legal) (notices : ∀ r, (f r).notices = r.notices)
    (period : ∀ r, (f r).period = r.period) (fixed : ∀ r, r.kind ≠ .roving → (f r).kind ≠ .roving) : Keeps s (s.modifyRecord h f) := by
  cases held : s.live h with
  | none => rw [modifyRecord_none s f held]; exact .refl s
  | some r =>
    exact .ofRecord held (fun i => by rw [modifyRecord_live s f held]) (home r) (owner r) (legal r held) (notices r) (by simp) (by simp)
      fun list => list.modify h period fixed

/-- A change that leaves kind, owner, notices and period alone. -/
theorem Keeps.writeValues (h : Handle) (f : Record → Record) (kind : ∀ r, (f r).kind = r.kind) (owner : ∀ r, (f r).owner = r.owner)
    (legal : ∀ r, s.live h = some r → r.Legal → (f r).Legal) (notices : ∀ r, (f r).notices = r.notices)
    (period : ∀ r, (f r).period = r.period) : Keeps s (s.modifyRecord h f) :=
  .write s h f (fun r => ⟨fun hk => kind r ▸ hk, fun _ => kind r⟩) (fun r ho => Or.inl (owner r ▸ ho)) legal notices period
    fun r hk => kind r ▸ hk

/-! ### Slots filled and vacated -/

theorem recordAt_setSlot (i j : Fin 48) (v : Slot) : (s.setSlot i v).recordAt j = if i = j then v.record else s.recordAt j := by
  rw [State.recordAt, slotAt_setSlot]
  split <;> rfl

/-- A fresh record has no notice, no period and fields that fit, whatever its kind, class and owner. -/
theorem created_fits (kind : Kind) (cls : Fin 8) (owner : Owner) : (Record.created kind cls owner).Legal :=
  ⟨fun _ => ⟨rfl, rfl, rfl, rfl⟩, fun _ => rfl, fun h => h, by simp [Record.created, Parameters.Fits], Or.inl rfl⟩

/-- A record made in a VACANT slot of an allocation window. -/
theorem createIn_keeps {w : AllocWindow} {kind : Kind} {cls : Fin 8} {owner : Owner} {t : State} {h : Handle}
    (made : s.createIn w kind cls owner = some (t, h)) (notHome : kind ≠ .home)
    (inside : owner = .pendant → w = s.table.pendantWindow) : Keeps s t := by
  unfold State.createIn at made
  split at made
  · rename_i i found
    cases made
    have vacant : w.contains i = true ∧ s.recordAt i = none := by simpa [State.lowestVacant] using List.find?_some found
    obtain ⟨window, empty⟩ := vacant
    have list : ListLegal s → ListLegal (s.setSlot i { generation := (s.slotAt i).generation, record := some (Record.created kind cls owner) }) := by
      rintro ⟨sorted, nodup, live, has⟩
      refine ⟨sorted, nodup, fun e he => ?_, fun j r held nonzero => ?_⟩
      · obtain ⟨r, hl, fits⟩ := live e he
        refine ⟨r, ?_, fits⟩
        have other : i ≠ e.handle.slot := by
          rintro rfl
          rw [live_eq_some, empty] at hl
          exact absurd hl.2 (by simp)
        rw [live_eq_some] at hl ⊢
        rw [slotAt_setSlot_ne _ _ _ _ other, recordAt_setSlot, if_neg other]
        exact hl
      · rw [recordAt_setSlot] at held
        split at held
        · cases held; exact absurd rfl nonzero
        · rename_i other
          obtain ⟨e, he, handle⟩ := has j r held nonzero
          exact ⟨e, he, by rw [handle, State.handleOf, State.handleOf, slotAt_setSlot_ne _ _ _ _ other]⟩
    refine ⟨fun ⟨⟨zero, ⟨r, held, home⟩, others⟩, ⟨st, pd, within_⟩, fits⟩ => ?_, fun ⟨told, tables, bounded, legal⟩ => ⟨?_, tables, bounded, list legal⟩,
      list, rfl, rfl⟩
    · have other : i ≠ 0 := by rintro rfl; rw [empty] at held; cases held
      refine ⟨⟨?_, ⟨r, ?_, home⟩, fun j r' ne held' => ?_⟩, ⟨st, pd, fun j r' held' ho => ?_⟩, fun j r' held' => ?_⟩
      · rw [slotAt_setSlot_ne _ _ _ _ other]; exact zero
      · rw [recordAt_setSlot, if_neg other]; exact held
      all_goals
        rw [recordAt_setSlot] at held'
        split at held'
      · cases held'; exact notHome
      · exact others j r' ne held'
      · cases held'
        rename_i slot
        rw [← slot]
        exact inside ho ▸ window
      · exact within_ j r' held' ho
      · cases held'; exact created_fits _ _ _
      · exact fits j r' held'
    · suffices pends : (s.setSlot i { generation := (s.slotAt i).generation, record := some (Record.created kind cls owner) }).anyPending = s.anyPending by
        rw [LineTellsCondition, pends]; exact told
      refine anyPending_congr rfl fun j => ?_
      rw [slotPending_eq, slotPending_eq, recordAt_setSlot]
      split
      · rename_i slot
        subst slot
        rw [empty]
        simp [NoticeUnit.unmaskedRecord, Record.created]
      · rfl
  · cases made

/-- A slot other than HOME's vacated, its revisit entry gone and the line judged. -/
theorem gone_keeps {i : Fin 48} (ne : i ≠ 0) : Keeps s (((s.removeEntry i).vacate i).judgeLine) := by
  have slot : ∀ j, (((s.removeEntry i).vacate i).judgeLine).slotAt j
      = if i = j then { generation := (s.slotAt i).generation + 1, record := none } else s.slotAt j := fun j => slotAt_setSlot (s.removeEntry i) i j _
  have record : ∀ j, (((s.removeEntry i).vacate i).judgeLine).recordAt j = if i = j then none else s.recordAt j := fun j => by
    rw [State.recordAt, slot]; split <;> rfl
  have entries : (((s.removeEntry i).vacate i).judgeLine).scheduler.entries = withoutEntry i s.scheduler.entries := rfl
  have list : ListLegal s → ListLegal (((s.removeEntry i).vacate i).judgeLine) := by
    rintro ⟨sorted, nodup, live, has⟩
    rw [ListLegal, entries]
    refine ⟨sorted.sublist (withoutEntry_sublist _ _), nodup.sublist ((withoutEntry_sublist _ _).map _), fun e he => ?_, fun j r held nonzero => ?_⟩
    · obtain ⟨he, other⟩ := mem_withoutEntry.mp he
      obtain ⟨r, hl, fits⟩ := live e he
      rw [live_eq_some] at hl
      refine ⟨r, ?_, fits⟩
      rw [live_eq_some, slot, record, if_neg (Ne.symm other), if_neg (Ne.symm other)]
      exact hl
    · rw [record] at held
      split at held
      · cases held
      · rename_i other
        obtain ⟨e, he, handle⟩ := has j r held nonzero
        refine ⟨e, mem_withoutEntry.mpr ⟨he, ?_⟩, ?_⟩
        · rw [handle]; exact Ne.symm other
        · rw [handle, State.handleOf, State.handleOf, slot, if_neg other]
  refine ⟨fun ⟨⟨zero, ⟨r, held, home⟩, others⟩, ⟨st, pd, inside⟩, fits⟩ => ⟨⟨?_, ⟨r, ?_, home⟩, ?_⟩, ⟨st, pd, ?_⟩, ?_⟩,
    fun ⟨told, tables, bounded, legal⟩ => ⟨lineTells_judgeLine _, tables, ⟨?_, bounded.2⟩, list legal⟩, list, rfl, rfl⟩
  · rw [slot, if_neg ne]; exact zero
  · rw [record, if_neg ne]; exact held
  · intro j r' hj held'
    rw [record] at held'
    split at held'
    · cases held'
    · exact others j r' hj held'
  · intro j r' held' ho
    rw [record] at held'
    split at held'
    · cases held'
    · exact inside j r' held' ho
  · intro j r' held'
    rw [record] at held'
    split at held'
    · cases held'
    · exact fits j r' held'
  · rw [entries]
    exact le_trans (List.length_filter_le _ _) bounded.1

/-- What is taken off the beam before a slot is vacated at a RETIRE, by the record's state (R95). -/
def State.unclaim (s : State) (h : Handle) (r : Record) : State :=
  match r.state with
  | .dormant => s
  | .queued => (s.setQueue (withoutQueued h.slot s.arbiter.queue)).reportRemoval ((s.queuedAt h.slot).map (·.request))
  | .suspended => (s.setStack (withoutStacked h.slot s.arbiter.stack)).reportRemoval (s.stackedAt h.slot)
  | .active _ => ((s.endPursuit false).setGrant none).reportRemoval s.arbiter.grant

/-- The record is in an active state. -/
theorem isActive_iff (r : Record) : r.isActive = true ↔ ∃ st, r.state = .active st := by
  unfold Record.isActive
  cases r.state <;> simp

theorem reportRemoval_removeEntry (q : Option Request) (i : Fin 48) : (s.removeEntry i).reportRemoval q = (s.reportRemoval q).removeEntry i := by
  cases q with
  | none => rfl
  | some q => simp only [State.reportRemoval]; split <;> rfl

theorem endPursuit_false_removeEntry (i : Fin 48) : (s.removeEntry i).endPursuit false = (s.endPursuit false).removeEntry i := by
  have same : (s.removeEntry i).pursuit = s.pursuit := rfl
  unfold State.endPursuit
  rw [same]
  cases s.pursuit with
  | none => rfl
  | some c => simp; rfl

/-- RETIRE of a record other than HOME: what claims the beam is taken off it, the slot is vacated and its entry leaves the list, and a beam that was the
record's is regranted. -/
theorem retireRecord_eq {h : Handle} {r : Record} (ne : h.slot ≠ 0) :
    s.retireRecord h r =
      (if r.isActive then (((s.unclaim h r).removeEntry h.slot).vacate h.slot).judgeLine.select true
        else (((s.unclaim h r).removeEntry h.slot).vacate h.slot).judgeLine, .ok) := by
  have queue (q : List QueueEntry) : (s.removeEntry h.slot).setQueue q = (s.setQueue q).removeEntry h.slot := rfl
  have stack (t : List Request) : (s.removeEntry h.slot).setStack t = (s.setStack t).removeEntry h.slot := rfl
  have grant (u : State) : (u.removeEntry h.slot).setGrant none = (u.setGrant none).removeEntry h.slot := rfl
  rw [State.retireRecord, if_neg ne]
  cases hs : r.state with
  | dormant => simp [State.unclaim, Record.isActive, hs]
  | queued =>
    simp only [State.unclaim, Record.isActive, hs, queue, reportRemoval_removeEntry]
    rfl
  | suspended =>
    simp only [State.unclaim, Record.isActive, hs, stack, reportRemoval_removeEntry]
    rfl
  | active st =>
    simp only [State.unclaim, Record.isActive, hs, endPursuit_false_removeEntry, grant, reportRemoval_removeEntry]
    rfl

theorem unclaim_keeps (h : Handle) (r : Record) : Keeps s (s.unclaim h r) := by
  unfold State.unclaim
  split
  · exact .refl s
  · exact (setQueue_keeps s _).trans (reportRemoval_keeps _ _)
  · exact (setStack_keeps s _).trans (reportRemoval_keeps _ _)
  · exact ((endPursuit_keeps s _).trans (setGrant_keeps _ _)).trans (reportRemoval_keeps _ _)

theorem retireRecord_keeps (h : Handle) (r : Record) : Keeps s (s.retireRecord h r).1 := by
  by_cases ne : h.slot = 0
  · rw [State.retireRecord, if_pos ne]; exact .refl s
  · rw [retireRecord_eq s ne]
    have g := (unclaim_keeps s h r).trans (gone_keeps _ ne)
    exact .ite (g.trans (select_keeps _ _)) g

/-! ### SET, CHANGE-KIND, SET-REVISIT -/

theorem setParametersOf_keeps (h : Handle) (r : Record) (p : Parameters) : Keeps s (s.setParametersOf h r p).1 := by
  unfold State.setParametersOf
  dsimp only
  split
  · exact .refl s
  · split
    · exact .refl s
    · rename_i fits
      have inRange : p.Fits := (parametersInRange_iff p).mp (by simpa using fits)
      split
      · exact .refl s
      · split
        · exact .refl s
        · refine .writeValues s h _ (fun _ => rfl) (fun _ => rfl) (fun r' _ legal => ?_) (fun _ => rfl) fun _ => rfl
          obtain ⟨roving, motion, overrun, -, period⟩ := legal
          exact ⟨roving, motion, overrun, inRange, period⟩

/-- A live record is the one its handle was found with. -/
theorem live_unique {s : State} {h : Handle} {r r' : Record} (held : s.live h = some r) (held' : s.live h = some r') : r' = r := by
  simpa [held'] using held

theorem setReferenceOf_keeps {h : Handle} {r : Record} (held : s.live h = some r) (ref : Reference) (a t : Nat) :
    Keeps s (s.setReferenceOf h r ref a t).1 := by
  unfold State.setReferenceOf
  dsimp only
  split_ifs with kind
  · exact .refl s
  · exact .refl s
  · exact .refl s
  · exact .refl s
  · refine .writeValues s h _ (fun _ => rfl) (fun _ => rfl) (fun r' held' legal => ?_) (fun _ => rfl) fun _ => rfl
    obtain rfl := live_unique held held'
    obtain ⟨-, rest⟩ := legal
    exact ⟨fun roving => absurd roving kind, rest⟩

theorem removeReferenceOf_keeps (h : Handle) (r : Record) : Keeps s (s.removeReferenceOf h r).1 := by
  unfold State.removeReferenceOf
  dsimp only
  split_ifs
  · exact .refl s
  · exact .refl s
  · exact .refl s
  · refine .writeValues s h _ (fun _ => rfl) (fun _ => rfl) (fun r' _ legal => ?_) (fun _ => rfl) fun _ => rfl
    obtain ⟨roving, rest⟩ := legal
    exact ⟨fun kind => ⟨rfl, rfl, rfl, (roving kind).2.2.2⟩, rest⟩

theorem setHoldOf_keeps (h : Handle) (r : Record) (v : Bool) : Keeps s (s.setHoldOf h r v).1 := by
  unfold State.setHoldOf
  split
  · exact .refl s
  · exact .writeValues s h _ (fun _ => rfl) (fun _ => rfl) (fun _ _ legal => legal) (fun _ => rfl) fun _ => rfl

/-- A record's period written 0 and its entry removed with it. -/
theorem dropPeriod_keeps {h : Handle} {f : Record → Record} {r : Record} (held : s.live h = some r)
    (home : ((f r).kind = .home → r.kind = .home) ∧ (h.slot = 0 → (f r).kind = r.kind)) (owner : (f r).owner = r.owner)
    (legal : r.Legal → (f r).Legal) (notices : (f r).notices = r.notices) (period : (f r).period = 0) :
    Keeps s ((s.modifyRecord h f).removeEntry h.slot) := by
  have generation : ∀ i, (((s.modifyRecord h f).removeEntry h.slot).slotAt i).generation = (s.slotAt i).generation :=
    generation_modifyRecord s h f
  have record : ∀ i, ((s.modifyRecord h f).removeEntry h.slot).recordAt i = if h.slot = i then some (f r) else s.recordAt i := fun i => by
    rw [modifyRecord_live s f held]; exact recordAt_setSlot s h.slot i _
  have entries : ((s.modifyRecord h f).removeEntry h.slot).scheduler.entries = withoutEntry h.slot s.scheduler.entries := by simp [State.removeEntry]
  refine .ofRecord held (fun i => by rw [modifyRecord_live s f held]; rfl) home (fun ho => Or.inl (owner ▸ ho)) legal notices (by simp [State.removeEntry])
    (fun short => by rw [entries]; exact le_trans (List.length_filter_le _ _) short) ?_
  rintro ⟨sorted, nodup, live, has⟩
  rw [ListLegal, entries]
  refine ⟨sorted.sublist (withoutEntry_sublist _ _), nodup.sublist ((withoutEntry_sublist _ _).map _), fun e he => ?_, fun j r' held' nonzero => ?_⟩
  · obtain ⟨he, other⟩ := mem_withoutEntry.mp he
    obtain ⟨r', hl, fits⟩ := live e he
    rw [live_eq_some] at hl
    exact ⟨r', by rw [live_eq_some, generation, record, if_neg (Ne.symm other)]; exact hl, fits⟩
  · rw [record] at held'
    split at held'
    · cases held'; exact absurd period nonzero
    · rename_i other
      obtain ⟨e, he, handle⟩ := has j r' held' nonzero
      exact ⟨e, mem_withoutEntry.mpr ⟨he, by rw [handle]; exact Ne.symm other⟩, by rw [handle, State.handleOf, State.handleOf, generation]⟩

theorem changeKindOf_keeps {h : Handle} {r : Record} (held : s.live h = some r) (expected wanted : Kind) :
    Keeps s (s.changeKindOf h r expected wanted).1 := by
  unfold State.changeKindOf
  dsimp only
  split
  · exact .refl s
  · rename_i allowed
    obtain ⟨slot, notHome⟩ : h.slot ≠ 0 ∧ wanted ≠ .home := by simpa using allowed
    split
    · exact .refl s
    · split
      · exact .refl s
      · split
        · exact .refl s
        · split
          · rename_i roving
            subst roving
            refine dropPeriod_keeps s held ⟨fun hk => Kind.noConfusion hk, fun hs => absurd hs slot⟩ rfl (fun legal => ?_) rfl rfl
            obtain ⟨-, -, overrun, params, -⟩ := legal
            exact ⟨fun _ => ⟨rfl, rfl, rfl, rfl⟩, fun hk => absurd rfl hk, overrun, params, Or.inl rfl⟩
          · rename_i notRoving
            have nest : wanted = .nest := by cases wanted <;> simp_all
            subst nest
            split
            · exact .refl s
            · refine .write s h _ (fun r' => ⟨fun hk => Kind.noConfusion hk, fun hs => absurd hs slot⟩) (fun r' ho => Or.inl ho)
                (fun r' _ legal => ?_) (fun _ => rfl) (fun _ => rfl) fun _ _ hk => Kind.noConfusion hk
              obtain ⟨-, -, rest⟩ := legal
              exact ⟨fun hk => Kind.noConfusion hk, fun _ => rfl, rest⟩

/-- A period other than 0 written for a fixed record, and its entry placed: a list that is not full has room for it. -/
theorem setPeriod_keeps {h : Handle} {r : Record} (held : s.live h = some r) (kind : r.kind ≠ .roving) {p : Nat} (fits : PeriodFits p)
    (nonzero : p ≠ 0) (room : s.entryAt h.slot = none → s.scheduler.entries.length < 32) (due : Time) (st : RevisitStatus) :
    Keeps s ((s.modifyRecord h fun r => { r with period := p }).placeEntry { handle := h, due := due, status := st }) := by
  refine .ofRecord (r' := { r with period := p }) held (fun i => by rw [modifyRecord_live s _ held]; rfl) ⟨id, fun _ => rfl⟩ Or.inl (fun legal => ?_) rfl
    (by simp [State.placeEntry])
    (fun short => ?_) fun legal => legal.placeEntry (live_modifyRecord s _ held) kind nonzero (by simp) fun i ne => ?_
  · obtain ⟨-, motion, overrun, params, -⟩ := legal
    exact ⟨fun hk => absurd hk kind, motion, overrun, params, fits⟩
  · have placed : ((s.modifyRecord h fun r => { r with period := p }).placeEntry { handle := h, due := due, status := st }).scheduler.entries.length
        = (withoutEntry h.slot s.scheduler.entries).length + 1 := by simp [State.placeEntry]
    rw [placed]
    cases found : s.entryAt h.slot with
    | none => exact Nat.succ_le_of_lt (lt_of_le_of_lt (List.length_filter_le _ _) (room found))
    | some e =>
      obtain ⟨he, slot⟩ := entryAt_eq_some s found
      have := length_withoutEntry_lt he slot
      omega
  · rw [modifyRecord_live s _ held, State.withRecord, slotAt_setSlot_ne _ _ _ _ (Ne.symm ne)]

theorem setRevisitOf_keeps {h : Handle} {r : Record} (held : s.live h = some r) (p : Nat) : Keeps s (s.setRevisitOf h r p).1 := by
  unfold State.setRevisitOf
  split
  · exact .refl s
  · rename_i kind
    split
    · exact .refl s
    · rename_i range
      have fits : PeriodFits p := (periodInRange_iff p).mp (by simpa using range)
      split
      · exact .refl s
      · rename_i full
        split
        · exact .refl s
        · unfold State.reschedule
          split
          · rename_i zero
            subst zero
            refine dropPeriod_keeps s held ⟨id, fun _ => rfl⟩ rfl (fun legal => ?_) rfl rfl
            obtain ⟨roving, motion, overrun, params, -⟩ := legal
            exact ⟨fun hk => ⟨(roving hk).1, (roving hk).2.1, (roving hk).2.2.1, rfl⟩, motion, overrun, params, fits⟩
          · rename_i nonzero
            exact setPeriod_keeps s held kind fits nonzero (fun none => by by_contra long; exact full ⟨nonzero, none, by omega⟩) _ _

end Sys2Proof.Machine
end

section
/-! Every command completes, leaves the queue of commands alone and keeps what every step keeps; the statements on every step are read off this. -/

namespace Sys2Proof.Machine

variable (s : State)

/-! ### How an event comes out -/

/-- An event completes in a next state with the queue of commands as it stood, and keeps the records and the lines, the station link among them. -/
def Completes (s : State) (o : Result) : Prop :=
  ∃ t, o = .next t ∧ t.pending = s.pending ∧ (TableFits s → TableFits t) ∧ (LinesFit s → LinkLegal s → LinesFit t ∧ LinkLegal t)

/-- An event whose effect keeps the properties. -/
theorem whenUp_completes (n : Nat) {f : State → State} (keeps : ∀ u, Keeps u (f u)) : Completes s (s.whenUp n f) := by
  cases up : s.resetnLow with
  | true => exact ⟨_, whenUp_low s n f up, rfl, id, fun lines link => ⟨lines, link⟩⟩
  | false =>
    obtain ⟨table, lines, -, link, pending⟩ := keeps s.quiet
    exact ⟨_, whenUp_high s n f up, pending, table, fun fits legal => ⟨lines fits, by rw [LinkLegal, link]; exact legal⟩⟩

/-- An event of the part whose effect keeps the properties. -/
theorem ownEvent_completes {f : State → State} (keeps : ∀ u, Keeps u (f u)) : Completes s (s.ownEvent f) :=
  whenUp_completes s 0 fun u => (keeps u).trans (settle_keeps _ _)

/-- A station command whose taking keeps the properties: its response is pending, READY is high, and the buffer keeps 34 bytes at most. -/
theorem station_completes (i : Instr) {take : State → State × Response} (keeps : ∀ u, Keeps u (take u).1) : Completes s (s.station i take) := by
  cases up : s.resetnLow with
  | true => exact ⟨_, whenUp_low s _ _ up, rfl, id, fun lines link => ⟨lines, link⟩⟩
  | false =>
    obtain ⟨table, lines, -, link, pending⟩ := keeps (s.atRise i)
    refine ⟨_, station_high s i take up, pending, table, fun fits _ => ⟨lines fits, rfl, ?_⟩⟩
    have received : (take (s.atRise i)).1.link.received = (s.atRise i).link.received := congrArg StationLink.received link
    have short : (s.atRise i).link.received.length ≤ 34 := List.length_take_le _ _
    exact received ▸ short

/-- A station command followed by the scheduler's passes. -/
theorem settled_completes (i : Instr) {take : State → State × Response} (keeps : ∀ u, Keeps u (take u).1) : Completes s (s.station i (settled take)) :=
  station_completes s i fun u => (keeps u).trans (settle_keeps _ _)

/-- A request on a live record that keeps the properties. -/
theorem onRecord_keeps {found : Except Answer (Handle × Record)} {take : Handle → Record → State × Response}
    (keeps : ∀ h r, found = .ok (h, r) → Keeps s (take h r).1) : Keeps s (s.onRecord found take).1 := by
  unfold State.onRecord
  split
  · exact .refl s
  · exact keeps _ _ rfl

theorem withSelector_keeps {x wanted : Byte} {found : Except Answer (Handle × Record)} {take : Handle → Record → State × Response}
    (keeps : ∀ h r, found = .ok (h, r) → Keeps s (take h r).1) : Keeps s (withSelector s x wanted found take).1 := by
  unfold withSelector
  split
  · exact onRecord_keeps s keeps
  · exact .refl s

/-- A record named by its handle checks is live. -/
theorem lookup_live {slot gen : Byte} {h : Handle} {r : Record} (ok : s.lookup slot gen = .ok (h, r)) : s.live h = some r := (lookup_ok s ok).1

theorem lookupOwned_live {slot gen : Byte} {h : Handle} {r : Record} (ok : s.lookupOwned slot gen = .ok (h, r)) : s.live h = some r :=
  (lookupOwned_ok s ok).1

/-! ### The power-on condition (R24) -/

theorem slotAt_powerOn (i : Fin 48) :
    State.powerOn.slotAt i = if i = 0 then { generation := 0, record := some Record.powerOnHome } else { generation := 0, record := none } := by
  simp only [State.slotAt, State.powerOn, Vector.getElem_set, Vector.getElem_replicate]
  by_cases h : i = 0
  · simp [h]
  · have : ¬(0 = i.val) := fun hc => h (Fin.ext hc.symm)
    simp [h, this]

theorem recordAt_powerOn (i : Fin 48) : State.powerOn.recordAt i = if i = 0 then some Record.powerOnHome else none := by
  rw [State.recordAt, slotAt_powerOn]; split <;> rfl

theorem powerOn_fits : TableFits State.powerOn ∧ LinesFit State.powerOn ∧ LinkLegal State.powerOn := by
  have only : ∀ i r, State.powerOn.recordAt i = some r → i = 0 ∧ r = Record.powerOnHome := fun i r held => by
    rw [recordAt_powerOn] at held
    split at held
    · rename_i zero; cases held; exact ⟨zero, rfl⟩
    · cases held
  have fits : Record.powerOnHome.Legal := ⟨fun hk => Kind.noConfusion hk, fun _ => rfl, id, by simp [Record.powerOnHome, Parameters.Fits], Or.inl rfl⟩
  refine ⟨⟨⟨rfl, ⟨_, recordAt_powerOn 0, rfl, rfl⟩, fun i r ne held => absurd (only i r held).1 ne⟩,
      ⟨by decide, by decide, fun i r held ho => ?_⟩, fun i r held => ?_⟩,
    ⟨?_, ⟨fun i => ?_, by decide, by decide, by decide⟩, by unfold StoresBounded; decide, List.Pairwise.nil, List.nodup_nil, by simp [State.powerOn], fun i r held period => ?_⟩,
    rfl, by decide⟩
  · obtain ⟨-, rfl⟩ := only i r held
    cases ho
  · obtain ⟨-, rfl⟩ := only i r held
    exact fits
  · rfl
  · simp [State.powerOn, ClassEntry.powerOn, ClassEntry.Fits]
  · obtain ⟨-, rfl⟩ := only i r held
    exact absurd rfl period

theorem execResetnLow_completes : Completes s (execResetnLow s) := by
  obtain ⟨table, lines, link⟩ := powerOn_fits
  exact ⟨_, rfl, rfl, fun _ => table, fun _ _ => ⟨lines, link⟩⟩

theorem execResetnRise_completes : Completes s (execResetnRise s) := by
  refine ⟨_, rfl, ?_, ?_, ?_⟩ <;> split
  · rfl
  · rfl
  · exact id
  · exact id
  · exact fun lines link => ⟨lines, link⟩
  · exact fun lines link => ⟨lines, link⟩

/-! ### Transactions that reach no block (R176, R177) -/

/-- A transaction that is clocked, and may consume a response. -/
theorem clocked_completes (i : Instr) {f : State → State} (judged : ∀ u : State, f u = u ∨ f u = u.dropResponse) :
    Completes s (s.whenUp (clocksOf i) fun u => f (u.transact i)) := by
  cases up : s.resetnLow with
  | true => exact ⟨_, whenUp_low s _ _ up, rfl, id, fun lines link => ⟨lines, link⟩⟩
  | false =>
    have short : (s.quiet.transact i).link.received.length ≤ 34 := List.length_take_le _ _
    refine ⟨_, whenUp_high s _ _ up, ?_⟩
    rcases judged (s.quiet.transact i) with same | dropped
    · rw [same]
      exact ⟨rfl, id, fun lines link => ⟨lines, link.1, short⟩⟩
    · rw [dropped]
      exact ⟨rfl, id, fun lines _ => ⟨lines, rfl, short⟩⟩

theorem endRead_cases (n : Nat) : s.endRead n = s ∨ s.endRead n = s.dropResponse := by
  unfold State.endRead
  split
  · split
    · exact Or.inr rfl
    · exact Or.inl rfl
  · exact Or.inl rfl

/-! ### Commands that write records -/

theorem takeCreate_keeps (kind cls : Byte) : Keeps s (takeCreate kind cls s).1 := by
  unfold takeCreate
  split
  · exact .refl s
  · rename_i k c notHome _ _
    split
    · rename_i t h made
      exact createIn_keeps s made (fun hk => notHome (hk ▸ rfl)) fun ho => Owner.noConfusion ho
    · exact .refl s
  · exact .refl s

theorem afterRead_keeps (h : Handle) (g : Group) : Keeps s (s.modifyRecord h (·.afterRead g)) := by
  cases g
  case fix =>
    refine .modify s h _ (fun _ => rfl) (fun _ => rfl) fun r _ fits => ?_
    obtain ⟨roving, motion, -, rest⟩ := fits
    exact ⟨roving, motion, fun hf => Bool.noConfusion hf, rest⟩
  all_goals exact (Keeps.refl s).course (fun _ => rfl) (fun _ => rfl) fun _ fits => fits

theorem takeRead_keeps (slot gen group : Byte) : Keeps s (takeRead slot gen group s).1 := by
  unfold takeRead
  split
  · exact .refl s
  · exact onRecord_keeps s fun h r _ => afterRead_keeps s h _

theorem takeSetHold_keeps (slot gen x v : Byte) : Keeps s (takeSetHold slot gen x v s).1 :=
  withSelector_keeps s fun h r _ => by
    split
    · exact .refl s
    · exact setHoldOf_keeps s h r _

theorem takeSetAutoResume_keeps (slot gen v : Byte) : Keeps s (takeSetAutoResume slot gen v s).1 :=
  onRecord_keeps s fun h r _ => by
    split
    · exact .refl s
    · split
      · exact .refl s
      · exact .writeValues s h _ (fun _ => rfl) (fun _ => rfl) (fun _ _ legal => legal) (fun _ => rfl) fun _ => rfl

theorem takeChangeKind_keeps (slot gen x y : Byte) : Keeps s (takeChangeKind slot gen x y s).1 := by
  unfold takeChangeKind
  split
  · exact onRecord_keeps s fun h r ok => changeKindOf_keeps s (lookupOwned_live s ok) _ _
  · exact .refl s

theorem takeTake_keeps (slot gen : Byte) : Keeps s (takeTake slot gen s).1 :=
  onRecord_keeps s fun h r _ => by
    split
    · exact .refl s
    · exact .write s h _ (fun _ => ⟨id, fun _ => rfl⟩) (fun _ ho => Owner.noConfusion ho) (fun _ _ legal => legal) (fun _ => rfl) (fun _ => rfl)
        fun _ hk => hk

theorem takeGive_keeps (slot gen : Byte) : Keeps s (takeGive slot gen s).1 :=
  onRecord_keeps s fun h r _ => by
    split_ifs with home outside
    · exact .refl s
    · exact .refl s
    · exact .refl s
    · exact .write s h _ (fun _ => ⟨id, fun _ => rfl⟩) (fun _ _ => Or.inr ⟨home, by simpa using outside⟩) (fun _ _ legal => legal) (fun _ => rfl)
        (fun _ => rfl) fun _ hk => hk

/-! ### WINDOWS (R19) -/

theorem withOwner_same {r : Record} {o : Owner} (same : r.owner = o) : { r with owner := o } = r := by subst same; rfl

theorem recordAt_transferOutside (w : AllocWindow) (i : Fin 48) :
    (s.transferOutside w).recordAt i = (s.recordAt i).map fun r => { r with owner := if w.contains i then r.owner else .station } := by
  have slot : (s.transferOutside w).recordAt i = if s.leftOutside w i then (s.recordAt i).map fun r => { r with owner := .station } else s.recordAt i := by
    simp only [State.recordAt, State.slotAt, State.transferOutside, Vector.getElem_ofFn]
    split <;> rfl
  rw [slot]
  cases hr : s.recordAt i with
  | none => simp
  | some r =>
    cases ho : r.owner <;> cases hc : w.contains i <;> simp [State.leftOutside, hr, ho, hc, withOwner_same ho]

theorem generation_transferOutside (w : AllocWindow) (i : Fin 48) : ((s.transferOutside w).slotAt i).generation = (s.slotAt i).generation := by
  have slot : (s.transferOutside w).slotAt i = if s.leftOutside w i then (s.slotAt i).toStation else s.slotAt i := by
    simp [State.slotAt, State.transferOutside, Vector.getElem_ofFn]
  rw [slot]
  split <;> rfl

/-- The pendant window rewritten. -/
def State.setPendantWindow (s : State) (w : AllocWindow) : State := { s with table := { s.table with pendantWindow := w } }

theorem recordAt_setPendantWindow (w : AllocWindow) (i : Fin 48) : (s.setPendantWindow w).recordAt i = s.recordAt i := rfl

theorem slotAt_setPendantWindow (w : AllocWindow) (i : Fin 48) : (s.setPendantWindow w).slotAt i = s.slotAt i := rfl

theorem toDormant_setPendantWindow (w : AllocWindow) (h : Handle) (o : EndOutcome) :
    (s.setPendantWindow w).toDormant h o = (s.toDormant h o).setPendantWindow w := by
  have modified : ((s.setPendantWindow w).modifyRecord h fun r => { r with state := .dormant, outcome := o })
      = (s.modifyRecord h fun r => { r with state := .dormant, outcome := o }).setPendantWindow w := by
    have live : (s.setPendantWindow w).live h = s.live h := rfl
    unfold State.modifyRecord
    rw [live]
    split <;> rfl
  unfold State.toDormant
  rw [modified]
  generalize (s.modifyRecord h fun r => { r with state := .dormant, outcome := o }) = t
  have entry : (t.setPendantWindow w).entryAt h.slot = t.entryAt h.slot := rfl
  dsimp only
  rw [entry]
  cases t.entryAt h.slot with
  | none => rfl
  | some e => dsimp only; split <;> rfl

/-- The entries that a claim names are removed before or after the pendant window is rewritten. -/
theorem removePendantEntries_setPendantWindow (w : AllocWindow) (claimed : Handle → Bool) :
    (s.setPendantWindow w).removePendantEntries claimed = (s.removePendantEntries claimed).setPendantWindow w := by
  have fold (l : List QueueEntry) : ∀ t : State, l.foldl (fun t e => t.toDormant e.request.handle .released) (t.setPendantWindow w)
      = (l.foldl (fun t e => t.toDormant e.request.handle .released) t).setPendantWindow w := by
    induction l with
    | nil => exact fun _ => rfl
    | cons e rest ih => intro t; rw [List.foldl_cons, List.foldl_cons, toDormant_setPendantWindow, ih]
  exact fold (s.arbiter.queue.filter fun e => decide (e.request.origin = .pendant) && claimed e.request.handle)
    (s.setQueue (s.arbiter.queue.filter fun e => !(decide (e.request.origin = .pendant) && claimed e.request.handle)))

@[simp] theorem transferOutside_fields (w : AllocWindow) :
    (s.transferOutside w).table.stationWindow = s.table.stationWindow ∧ (s.transferOutside w).classes = s.classes
      ∧ (s.transferOutside w).pursuit = s.pursuit ∧ (s.transferOutside w).arbiter = s.arbiter ∧ (s.transferOutside w).scheduler = s.scheduler
      ∧ (s.transferOutside w).ports = s.ports ∧ (s.transferOutside w).time = s.time ∧ (s.transferOutside w).notices = s.notices
      ∧ (s.transferOutside w).sweep = s.sweep ∧ (s.transferOutside w).link = s.link ∧ (s.transferOutside w).pendant = s.pendant
      ∧ (s.transferOutside w).pending = s.pending ∧ (s.transferOutside w).resetnLow = s.resetnLow := by
  simp [State.transferOutside]

@[simp] theorem setPendantWindow_fields (w : AllocWindow) :
    (s.setPendantWindow w).table.stationWindow = s.table.stationWindow ∧ (s.setPendantWindow w).table.pendantWindow = w
      ∧ (s.setPendantWindow w).classes = s.classes ∧ (s.setPendantWindow w).pursuit = s.pursuit ∧ (s.setPendantWindow w).arbiter = s.arbiter
      ∧ (s.setPendantWindow w).scheduler = s.scheduler ∧ (s.setPendantWindow w).ports = s.ports ∧ (s.setPendantWindow w).time = s.time
      ∧ (s.setPendantWindow w).notices = s.notices ∧ (s.setPendantWindow w).sweep = s.sweep ∧ (s.setPendantWindow w).link = s.link
      ∧ (s.setPendantWindow w).pendant = s.pendant ∧ (s.setPendantWindow w).pending = s.pending
      ∧ (s.setPendantWindow w).resetnLow = s.resetnLow := by
  refine ⟨?_, ?_, ?_, ?_, ?_, ?_, ?_, ?_, ?_, ?_, ?_, ?_, ?_, ?_⟩ <;> rfl

/-- Records outside a window passed to the station, while the window becomes the pendant window. -/
theorem Keeps.transferred {s t : State} {w : AllocWindow} (fits : s.table.pendantWindow.Fits → w.Fits)
    (record : ∀ i, t.recordAt i = (s.recordAt i).map fun r => { r with owner := if w.contains i then r.owner else .station })
    (generation : ∀ i, (t.slotAt i).generation = (s.slotAt i).generation)
    (same : t.table.stationWindow = s.table.stationWindow ∧ t.table.pendantWindow = w ∧ t.notices = s.notices ∧ t.classes = s.classes
      ∧ t.arbiter = s.arbiter ∧ t.scheduler = s.scheduler ∧ t.pendant = s.pendant ∧ t.link = s.link ∧ t.pending = s.pending) : Keeps s t := by
  obtain ⟨station, pendant, notices, classes, arbiter, scheduler, unit, link, pending⟩ := same
  have back : ∀ i x, t.recordAt i = some x → ∃ r, s.recordAt i = some r ∧ x.kind = r.kind ∧ x.period = r.period ∧ (r.Legal → x.Legal)
      ∧ (x.owner = .pendant → w.contains i = true) := fun i x held => by
    rw [record] at held
    obtain ⟨r, old, rfl⟩ := Option.map_eq_some_iff.mp held
    refine ⟨r, old, rfl, rfl, fun legal => legal, fun ho => ?_⟩
    by_contra outside
    simp [outside] at ho
  have list : ListLegal s → ListLegal t := by
    rintro ⟨sorted, nodup, live, has⟩
    rw [ListLegal, scheduler]
    refine ⟨sorted, nodup, fun e he => ?_, fun i x held nonzero => ?_⟩
    · obtain ⟨r, hl, kind, period⟩ := live e he
      obtain ⟨same, recordAt⟩ := (live_eq_some s).mp hl
      refine ⟨{ r with owner := if w.contains e.handle.slot then r.owner else .station }, ?_, kind, period⟩
      rw [live_eq_some, generation, record, recordAt]
      exact ⟨same, rfl⟩
    · obtain ⟨r, old, -, period, -⟩ := back i x held
      obtain ⟨e, he, handle⟩ := has i r old (period ▸ nonzero)
      exact ⟨e, he, by rw [handle, State.handleOf, State.handleOf, generation]⟩
  refine ⟨fun ⟨⟨zero, ⟨r, held, kind, owned⟩, others⟩, ⟨st, pd, inside⟩, legal⟩ =>
      ⟨⟨(generation 0).trans zero, ?_, fun i x ne held' => ?_⟩, ⟨station ▸ st, pendant ▸ fits pd, fun i x held' ho => ?_⟩, fun i x held' => ?_⟩,
    fun ⟨told, tables, bounded, legal⟩ => ⟨?_, ?_, ?_, list legal⟩, list, link, pending⟩
  · refine ⟨{ r with owner := if w.contains 0 then r.owner else .station }, by rw [record, held]; rfl, kind, ?_⟩
    dsimp only
    split
    · exact owned
    · rfl
  · obtain ⟨r', old, hk, -⟩ := back i x held'
    exact hk ▸ others i r' ne old
  · obtain ⟨r', old, -, -, -, inside'⟩ := back i x held'
    exact pendant ▸ inside' ho
  · obtain ⟨r', old, -, -, fits', -⟩ := back i x held'
    exact fits' (legal i r' old)
  · have pends : t.anyPending = s.anyPending := anyPending_congr (by rw [notices]) fun i => by
      rw [slotPending_eq, slotPending_eq, record, notices]
      cases s.recordAt i <;> rfl
    rw [LineTellsCondition, pends, notices]
    exact told
  · rw [TablesInRange, classes, arbiter]; exact tables
  · rw [StoresBounded, scheduler, unit, notices]; exact bounded

theorem transferOutside_keeps {w : AllocWindow} (fits : s.table.pendantWindow.Fits → w.Fits) :
    Keeps s ((s.transferOutside w).setPendantWindow w) :=
  .transferred fits (fun i => by rw [recordAt_setPendantWindow, recordAt_transferOutside])
    (fun i => by rw [slotAt_setPendantWindow, generation_transferOutside]) (by simp)

/-- A new pendant window, as the transfer, the removal and the forgetting of reported generations. -/
theorem movePendantWindow_eq (w : AllocWindow) :
    s.movePendantWindow w =
      (((s.transferOutside w).setPendantWindow w).removePendantEntries fun h => s.leftOutside w h.slot).forgetReported := by
  rw [removePendantEntries_setPendantWindow]; rfl

theorem movePendantWindow_keeps {w : AllocWindow} (fits : s.table.pendantWindow.Fits → w.Fits) : Keeps s (s.movePendantWindow w) := by
  rw [movePendantWindow_eq]
  exact ((transferOutside_keeps s fits).trans (removePendantEntries_keeps _ _)).trans (.of_eq rfl rfl rfl rfl rfl rfl rfl rfl)

theorem setWindows_keeps {st pd : AllocWindow} (station : s.table.stationWindow.Fits → st.Fits) (pendant : s.table.pendantWindow.Fits → pd.Fits) :
    Keeps s (s.setWindows st pd) := by
  have written : Keeps s { s with table := { s.table with stationWindow := st } } :=
    ⟨fun ⟨home, ⟨fits, pw, inside⟩, legal⟩ => ⟨home, ⟨station fits, pw, inside⟩, legal⟩, id, id, rfl, rfl⟩
  exact .ite written (written.trans (movePendantWindow_keeps _ pendant))

theorem takeWindows_keeps (x sb sl pb pl : Byte) : Keeps s (takeWindows x sb sl pb pl s).1 := by
  unfold takeWindows
  split
  · exact .refl s
  · rename_i sel _
    have station : ∀ st, (if selectsStation sel then windowOf sb sl else s.table.stationWindow) = st → (selectsStation sel = true → st.inRange = true) →
        s.table.stationWindow.Fits → st.Fits := by
      rintro st rfl inRange fits
      split
      · rename_i selected; simpa [selected, windowInRange_iff] using inRange selected
      · exact fits
    have pendant : ∀ pd, (if selectsPendant sel then windowOf pb pl else s.table.pendantWindow) = pd → (selectsPendant sel = true → pd.inRange = true) →
        s.table.pendantWindow.Fits → pd.Fits := by
      rintro pd rfl inRange fits
      split
      · rename_i selected; simpa [selected, windowInRange_iff] using inRange selected
      · exact fits
    dsimp only
    generalize hst : (if selectsStation sel then windowOf sb sl else s.table.stationWindow) = st
    generalize hpd : (if selectsPendant sel then windowOf pb pl else s.table.pendantWindow) = pd
    split_ifs with range same
    · exact .refl s
    · exact .refl s
    · simp only [not_or, not_and, Bool.not_eq_false] at range
      exact setWindows_keeps s (station st hst range.1) (pendant pd hpd range.2)

/-! ### The class table and the priority table (R27, R82) -/

theorem getElem_setClass (c i : Fin 8) (e : ClassEntry) : (s.setClass c e).classes[i.val] = if c = i then e else s.classes[i.val] := by
  simp only [State.setClass, Vector.getElem_set, Fin.val_inj]

theorem writeClass_keeps (c : Fin 8) (e : ClassEntry) : Keeps s (s.writeClass c e).1 := by
  unfold State.writeClass
  split_ifs with busy range
  · exact .refl s
  · exact .refl s
  · exact .refl s
  · exact .refl s
  · have fits : e.Fits := (classEntryInRange_iff e).mp (by simpa using range)
    refine ⟨id, fun ⟨told, ⟨classes, priorities⟩, rest⟩ => ⟨told, ⟨fun i => ?_, priorities⟩, rest⟩, id, rfl, rfl⟩
    rw [getElem_setClass]
    split
    · exact fits
    · exact classes i

theorem takeClassEntryWrite_keeps (cls : Byte) (a b d e f g : BitVec 16) : Keeps s (takeClassEntryWrite cls a b d e f g s).1 := by
  unfold takeClassEntryWrite
  split
  · exact writeClass_keeps s _ _
  · exact .refl s

theorem takeChangeClass_keeps (slot gen cls : Byte) : Keeps s (takeChangeClass slot gen cls s).1 :=
  onRecord_keeps s fun h r _ => by
    split
    · exact .refl s
    · split
      · exact .refl s
      · unfold State.changeClassOf
        dsimp only [bare, answered]
        split_ifs
        · exact .refl s
        · exact .refl s
        · exact .writeValues s h _ (fun _ => rfl) (fun _ => rfl) (fun _ _ legal => legal) (fun _ => rfl) fun _ => rfl

theorem takePriorityWrite_keeps (o v : Byte) : Keeps s (takePriorityWrite o v s).1 := by
  unfold takePriorityWrite
  split
  · exact .refl s
  · exact .refl s
  · rename_i origin _ _
    split_ifs with range
    · exact .refl s
    · exact .refl s
    · refine ⟨id, fun ⟨told, ⟨classes, station, pendant, revisit⟩, rest⟩ => ⟨told, ⟨classes, ?_⟩, rest⟩, id, rfl, rfl⟩
      have le : v.toNat ≤ 6 := Nat.not_lt.mp range
      cases origin
      · exact ⟨le, pendant, revisit⟩
      · exact ⟨station, le, revisit⟩
      · exact ⟨station, pendant, le⟩
      · exact ⟨station, pendant, revisit⟩

/-! ### PARK and UNPARK (R98, R100) -/

theorem driveHome_keeps : Keeps s s.driveHome := by
  unfold State.driveHome
  split
  · exact sendMove_keeps s _
  · exact sendHalt_keeps s

theorem offeredBecomeDue_keeps : Keeps s s.offeredBecomeDue := by
  have e : s.offeredBecomeDue
      = s.setEntries (s.scheduler.entries.map fun e => { e with status := if e.status = .offered then .due else e.status }) := by
    unfold State.offeredBecomeDue
    congr 1
    refine List.map_congr_left fun e _ => ?_
    split <;> rfl
  rw [e]
  exact setStatuses_keeps s _

theorem freeze_keeps : Keeps s s.freeze := ((setRunMode_keeps s _).trans (offeredBecomeDue_keeps _)).trans (setFrozen_keeps _ _)

theorem parkGrant_keeps : Keeps s s.parkGrant := by
  unfold State.parkGrant
  split
  · exact (((endPursuit_keeps s _).trans (setGrant_keeps _ _)).trans (toDormant_keeps _ _ _)).trans (reportEnd_keeps _ _ _)
  · exact .refl s

theorem parkCollections_keeps : Keeps s s.parkCollections :=
  (((setQueue_keeps s _).trans (setStack_keeps _ _)).trans (foldl_toDormant_keeps (fun q : Request => q.handle) _ _ _)).trans (setArrivalCounter_keeps _ _)

theorem takePark_keeps : Keeps s (takePark s).1 := by
  unfold takePark
  split
  · exact .refl s
  · exact (((parkGrant_keeps s).trans (parkCollections_keeps _)).trans (driveHome_keeps _)).trans (freeze_keeps _)

theorem takeUnpark_keeps : Keeps s (takeUnpark s).1 := by
  unfold takeUnpark
  split
  · exact .refl s
  · have entered : Keeps (s.setRunMode .running) (s.setRunMode .running).enterHomeCheck := .ite (enqueue_keeps _ _) (.refl _)
    exact ((((setRunMode_keeps s _).trans entered).trans (select_keeps _ _)).trans (setFrozen_keeps _ _)).trans (setPassWanted_keeps _ _)

theorem takePursue_keeps (slot gen flags pr : Byte) (az el : BitVec 32) : Keeps s (takePursue slot gen flags pr az el s).1 :=
  onRecord_keeps s fun h r _ => by
    split_ifs
    · exact .refl s
    · exact .refl s
    · exact pursueRecord_keeps s _ _ _ _ _

theorem takeRelease_keeps (slot gen : Byte) : Keeps s (takeRelease slot gen s).1 := onRecord_keeps s fun h r _ => releaseRecord_keeps s h r

theorem takeRetire_keeps (slot gen : Byte) : Keeps s (takeRetire slot gen s).1 := onRecord_keeps s fun h r _ => retireRecord_keeps s h r

/-! ### Times, notices and sweeps -/

theorem takeSyncWrite_keeps (v : BitVec 64) : Keeps s (takeSyncWrite v s).1 := by
  unfold takeSyncWrite
  dsimp only
  split_ifs
  · exact .refl s
  · exact .refl s
  · exact .of_eq rfl rfl rfl rfl rfl rfl rfl rfl

/-- The notice unit's masks and device set written, and the line judged. -/
theorem writeNotices_keeps (recordMask : BitVec 8) (device deviceMask : BitVec 7) (master : Bool) :
    Keeps s (State.judgeLine { s with notices :=
      { s.notices with recordMask := recordMask, device := device, deviceMask := deviceMask, master := master } }) :=
  ⟨id, fun ⟨_, rest⟩ => ⟨lineTells_judgeLine _, rest⟩, id, rfl, rfl⟩

theorem takeNoticeControlWrite_keeps (rm dm m : Byte) : Keeps s (takeNoticeControlWrite rm dm m s).1 := by
  unfold takeNoticeControlWrite
  split
  · exact .refl s
  · split_ifs
    · exact .refl s
    · exact .refl s
    · exact writeNotices_keeps s rm s.notices.device (dm.setWidth 7) _

theorem clearRecordNotices_keeps (h : Handle) : Keeps s (s.clearRecordNotices h) := by
  have a := modifyRecord_setup s h (fun r => { r with notices := r.notices &&& s.notices.recordMask }) fun _ => rfl
  refine .judged a (fun fits i r held => ?_) (fun _ bounded => by simpa [StoresBounded] using bounded) fun list => list.of_same a.records (by simp)
  rw [recordAt_modifyRecord] at held
  split at held
  · obtain ⟨r', held', rfl⟩ := Option.map_eq_some_iff.mp held
    exact fits i r' held'
  · exact fits i r held

theorem takeNextNotice_keeps : Keeps s (takeNextNotice s).1 := by
  unfold takeNextNotice
  split
  · exact writeNotices_keeps s s.notices.recordMask (s.notices.device &&& s.notices.deviceMask) s.notices.deviceMask s.notices.master
  · split
    · exact clearRecordNotices_keeps s _
    · exact .refl s

theorem clearCounters_keeps : Keeps s s.clearCounters :=
  ⟨id, fun ⟨told, tables, ⟨length, waiting, _⟩, list⟩ =>
    ⟨told, tables, ⟨length, waiting, Nat.zero_le _, Nat.zero_le _, Nat.zero_le _, Nat.zero_le _⟩, list⟩, id, rfl, rfl⟩

theorem setSweep_keeps (w : SweepUnit) : Keeps s (s.setSweep w) := .of_eq rfl rfl rfl rfl rfl rfl rfl rfl

theorem sweepEnds_keeps (cause : EndCause) (a : SweepAction) (acted skipped : Nat) : Keeps s (s.sweepEnds cause a acted skipped) :=
  (setSweep_keeps s _).trans (setDeviceNotice_keeps _ _)

theorem takeSweep_keeps (start direction count : Byte) (condition : ConditionBytes) (action : Byte) :
    Keeps s (takeSweep start direction count condition action s).1 := by
  unfold takeSweep
  split
  · split_ifs
    · exact .refl s
    · exact .refl s
    · exact .ite (sweepEnds_keeps s _ _ _ _) (setSweep_keeps s _)
  · exact .refl s

theorem takeSweepStop_keeps : Keeps s (takeSweepStop s).1 := by
  unfold takeSweepStop
  split
  · exact setSweep_keeps s _
  · exact .refl s

theorem ownedOr_keeps {r : Record} {t : State × Answer} (keeps : Keeps s t.1) : Keeps s (ownedOr s r t).1 := by
  unfold ownedOr
  split
  · exact .refl s
  · exact keeps

theorem actOnSlot_keeps (a : SweepAction) (i : Fin 48) : Keeps s (s.actOnSlot a i).1 := by
  unfold State.actOnSlot
  split
  · rename_i r held
    cases a
    · exact releaseRecord_keeps s _ r
    · exact ownedOr_keeps s (retireRecord_keeps s _ r)
    · exact ownedOr_keeps s (setRevisitOf_keeps s ((live_handleOf s i).trans held) 0)
    · exact ownedOr_keeps s (setHoldOf_keeps s _ r true)
    · exact ownedOr_keeps s (setHoldOf_keeps s _ r false)
  · exact .refl s

theorem moveSweepOn_keeps (sw : Sweep) : Keeps s (s.moveSweepOn sw) := by
  unfold State.moveSweepOn
  split
  · exact sweepEnds_keeps s _ _ _ _
  · split
    · exact sweepEnds_keeps s _ _ _ _
    · exact setSweep_keeps s _

theorem sweepStep_keeps (sw : Sweep) : Keeps s (s.sweepStep sw) :=
  .ite ((actOnSlot_keeps s _ _).trans (moveSweepOn_keeps _ _)) (moveSweepOn_keeps s _)

/-! ### The RESET command (R185) -/

/-- What the RESET command clears, between the end of the pursuit and its drive request. -/
def State.cleared (s : State) : State :=
  { s with
    table := s.table.afterReset
    arbiter := s.arbiter.afterReset
    scheduler := { entries := [], frozen := true, passWanted := false }
    ports := { s.ports with outstanding := none }
    notices := s.notices.afterReset
    sweep := s.sweep.afterReset }

theorem takeReset_eq : s.takeReset = ((s.endPursuit true).setContext none).cleared.driveHome := by
  unfold State.takeReset State.cleared
  rfl

@[simp] theorem Table.afterReset_stationWindow (t : Table) : t.afterReset.stationWindow = t.stationWindow := by
  rw [Table.afterReset]

@[simp] theorem Table.afterReset_pendantWindow (t : Table) : t.afterReset.pendantWindow = t.pendantWindow := by
  rw [Table.afterReset]

theorem cleared_table : s.cleared.table = s.table.afterReset := by rw [State.cleared]

theorem slotAt_cleared (i : Fin 48) : s.cleared.slotAt i = Slot.afterReset i (s.slotAt i) := by
  rw [State.slotAt, cleared_table]
  simp [State.slotAt, Table.afterReset]

/-- What a RESET leaves in a slot: HOME's record in slot 0, none elsewhere. -/
theorem recordAt_cleared (i : Fin 48) : s.cleared.recordAt i = if i = 0 then (s.recordAt 0).map Record.afterReset else none := by
  rw [State.recordAt, slotAt_cleared, Slot.afterReset, State.recordAt]
  split
  · rename_i r held
    split
    · rename_i zero
      subst zero
      rw [held]; rfl
    · rfl
  · rename_i vacant
    split
    · rename_i zero
      subst zero
      rw [vacant]; rfl
    · exact vacant

/-- A record a RESET leaves is HOME's, idle. -/
theorem recordAt_cleared_some {i : Fin 48} {x : Record} (held : s.cleared.recordAt i = some x) :
    i = 0 ∧ ∃ r, s.recordAt i = some r ∧ x = r.afterReset := by
  rw [recordAt_cleared] at held
  split at held
  · rename_i zero
    subst zero
    obtain ⟨r, old, rfl⟩ := Option.map_eq_some_iff.mp held
    exact ⟨rfl, r, old, rfl⟩
  · cases held

theorem listLegal_cleared : ListLegal s.cleared := by
  refine ⟨List.Pairwise.nil, List.nodup_nil, fun e he => absurd he List.not_mem_nil, fun i x held period => ?_⟩
  obtain ⟨-, r, -, rfl⟩ := recordAt_cleared_some s held
  exact absurd rfl period

theorem cleared_tableFits (fits : TableFits s) : TableFits s.cleared := by
  obtain ⟨⟨zero, ⟨r, held, kind, owned⟩, others⟩, ⟨st, pd, inside⟩, legal⟩ := fits
  refine ⟨⟨?_, ⟨r.afterReset, ?_, kind, owned⟩, fun i x ne held' => absurd (recordAt_cleared_some s held').1 ne⟩,
    ⟨?_, ?_, fun i x held' ho => ?_⟩, fun i x held' => ?_⟩
  · rw [slotAt_cleared, Slot.afterReset]
    split
    · exact zero
    · exact zero
  · rw [recordAt_cleared, if_pos rfl, held]; rfl
  · rw [cleared_table, Table.afterReset_stationWindow]; exact st
  · rw [cleared_table, Table.afterReset_pendantWindow]; exact pd
  · obtain ⟨-, r', old, rfl⟩ := recordAt_cleared_some s held'
    rw [cleared_table, Table.afterReset_pendantWindow]
    exact inside i r' old ho
  · obtain ⟨-, r', old, rfl⟩ := recordAt_cleared_some s held'
    obtain ⟨roving, -, -, params, -⟩ := legal i r' old
    exact ⟨fun hk => ⟨(roving hk).1, rfl, rfl, rfl⟩, fun _ => rfl, fun hf => Bool.noConfusion hf, params, Or.inl rfl⟩

theorem anyPending_cleared : s.cleared.anyPending = false := by
  have silent : ∀ i, s.cleared.slotPending i = false := fun i => by
    rw [slotPending_eq]
    cases held : s.cleared.recordAt i with
    | none => rfl
    | some x =>
      obtain ⟨-, r, -, rfl⟩ := recordAt_cleared_some s held
      simp [NoticeUnit.unmaskedRecord, Record.afterReset]
  have device : s.cleared.notices.unmaskedDevice = 0 := by
    rw [State.cleared]
    simp [NoticeUnit.unmaskedDevice, NoticeUnit.afterReset]
  simp [State.anyPending, silent, device]

/-- What the RESET command leaves of the tables, the stores, the notices and the link. -/
theorem cleared_fields : s.cleared.classes = s.classes ∧ s.cleared.arbiter = s.arbiter.afterReset ∧ s.cleared.scheduler.entries = []
    ∧ s.cleared.pendant = s.pendant ∧ s.cleared.notices = s.notices.afterReset ∧ s.cleared.link = s.link ∧ s.cleared.pending = s.pending := by
  rw [State.cleared]
  exact ⟨rfl, rfl, rfl, rfl, rfl, rfl, rfl⟩

theorem cleared_linesFit (fits : LinesFit s) : LinesFit s.cleared := by
  obtain ⟨-, tables, ⟨-, waiting, -⟩, -⟩ := fits
  obtain ⟨classes, arbiter, entries, pendant, notices, -, -⟩ := cleared_fields s
  refine ⟨?_, ?_, ?_, listLegal_cleared s⟩
  · rw [LineTellsCondition, anyPending_cleared, notices]
    simp [NoticeUnit.afterReset]
  · rw [TablesInRange, classes, arbiter]
    exact tables
  · rw [StoresBounded, entries, pendant, notices]
    exact ⟨Nat.zero_le _, waiting, Nat.zero_le _, Nat.zero_le _, Nat.zero_le _, Nat.zero_le _⟩

theorem cleared_keeps : Keeps s s.cleared := by
  obtain ⟨-, -, -, -, -, link, pending⟩ := cleared_fields s
  exact ⟨cleared_tableFits s, cleared_linesFit s, fun _ => listLegal_cleared s, link, pending⟩

theorem takeReset_keeps : Keeps s s.takeReset := by
  rw [takeReset_eq]
  exact (((endPursuit_keeps s true).trans (setContext_keeps _ none)).trans (cleared_keeps _)).trans (driveHome_keeps _)

/-! ### Frames, completions and deadlines -/

theorem countFrame_keeps (f : Frame) : Keeps s (s.countFrame f) :=
  ⟨id, fun ⟨told, tables, ⟨length, waiting, a, b, _, d⟩, list⟩ => ⟨told, tables, ⟨length, waiting, a, b, satAdd_le _ _ _, d⟩, list⟩, id, rfl, rfl⟩

theorem takeFrame_keeps (f : Frame) : Keeps s (s.takeFrame f) :=
  .ite ((countFrame_keeps s f).trans (pursuitFrame_keeps _ f)) (countFrame_keeps s f)

theorem takeArrived_keeps (tag : Byte) : Keeps s (s.takeArrived tag) := .ite (pursuitArrived_keeps s) (.refl s)

theorem takeFault_keeps (tag : Byte) : Keeps s (s.takeFault tag) := by
  have noted := setDeviceNotice_keeps s .drive
  exact .ite (.ite (noted.trans (pursuitEnds_keeps _ _)) noted) (.refl s)

theorem takeReading_keeps (tag : Byte) (distance : Nat) : Keeps s (s.takeReading tag distance) :=
  .ite ((withdrawRange_keeps s).trans (pursuitReading_keeps _ _)) (.refl s)

theorem takeFail_keeps (tag : Byte) : Keeps s (s.takeFail tag) := .ite ((withdrawRange_keeps s).trans (pursuitFail_keeps _)) (.refl s)

theorem takeRangeTimeout_keeps : Keeps s s.takeRangeTimeout :=
  .ite (((withdrawRange_keeps s).trans (setDeviceNotice_keeps _ _)).trans (pursuitFail_keeps _)) (.refl s)

/-! ### The pendant link -/

/-- The pendant link rewritten, with no more frames waiting than it holds. -/
theorem setPendant_keeps {p : PendantLink} (waiting : s.pendant.waiting.length ≤ 4 → p.waiting.length ≤ 4) : Keeps s (s.setPendant p) :=
  ⟨id, fun ⟨told, tables, ⟨length, wait, rest⟩, list⟩ => ⟨told, tables, ⟨length, waiting wait, rest⟩, list⟩, id, rfl, rfl⟩

theorem countPendantError_keeps : Keeps s s.countPendantError := by
  have noted : Keeps s (if s.notices.pendantErrors = 0 then s.setDeviceNotice .link else s) := .ite (setDeviceNotice_keeps s _) (.refl s)
  exact noted.trans ⟨id, fun ⟨told, tables, ⟨length, waiting, a, b, c, _⟩, list⟩ =>
    ⟨told, tables, ⟨length, waiting, a, b, c, satAdd_le _ _ _⟩, list⟩, id, rfl, rfl⟩

theorem takeFrameError_keeps (e : PendantError) : Keeps s (s.takeFrameError e) := by
  have hunting := setPendant_keeps s (p := { s.pendant with receiver := .hunting, inBreak := s.pendant.inBreak || decide (e = .lineBreak) }) id
  exact .ite (hunting.trans (countPendantError_keeps _)) hunting

theorem goodFrame_keeps : Keeps s s.goodFrame := by
  have present := setPendant_keeps s (p := { s.pendant with receiver := .hunting, present := true, silenceDeadline := some (s.now + silenceLength) }) id
  exact .ite present (present.trans (setDeviceNotice_keeps _ _))

theorem takeSilence_keeps : Keeps s s.takeSilence :=
  ((setPendant_keeps s (p := { s.pendant with present := false, silenceDeadline := none }) id).trans (setDeviceNotice_keeps _ _)).trans
    (removePendantEntries_keeps _ _)

theorem length_send_waiting (p : PendantLink) (f : StatusFrame) (short : p.waiting.length ≤ 4) : (p.send f).waiting.length ≤ 4 := by
  unfold PendantLink.send
  split
  · exact short
  · dsimp only
    split <;> simp <;> omega

theorem report_waiting (p : PendantLink) (f : StatusFrame) : (p.report f).waiting = p.waiting := by
  unfold PendantLink.report
  split <;> rfl

theorem sendStatus_keeps (f : StatusFrame) : Keeps s (s.sendStatus f) :=
  setPendant_keeps s fun short => by rw [report_waiting]; exact length_send_waiting _ _ short

theorem length_sent_waiting (p : PendantLink) (short : p.waiting.length ≤ 4) : p.sent.waiting.length ≤ 4 := by
  unfold PendantLink.sent
  split
  · exact short
  · exact short
  · rename_i hw
    rw [hw] at short
    exact (Nat.le_succ _).trans short

/-- A request of the pendant whose effect keeps the properties. -/
theorem pendantEvent_completes (kind : Byte) (fits : Bool) {take : State → Reply} (keeps : ∀ u, Keeps u (take u).after) :
    Completes s (s.pendantEvent kind fits take) := by
  refine whenUp_completes s 0 fun u => (goodFrame_keeps u).trans ?_
  refine .ite ?_ (sendStatus_keeps _ _)
  exact ((keeps _).trans (settle_keeps _ _)).trans (sendStatus_keeps _ _)

theorem onOffset_keeps {offset : Byte} {check : Bool} {take : Handle → Record → State × Answer} (keeps : ∀ h r, Keeps s (take h r).1) :
    Keeps s (s.onOffset offset check take).after := by
  unfold State.onOffset
  split
  · exact .refl s
  · exact keeps _ _

theorem takeClaimNew_keeps : Keeps s (takeClaimNew s).after := by
  unfold takeClaimNew
  split
  · rename_i t h made
    exact createIn_keeps s made (fun hk => Kind.noConfusion hk) fun _ => rfl
  · exact .refl s

theorem findRecord_keeps (h : Handle) (r : Record) : Keeps s (s.findRecord h r).1 := by
  unfold State.findRecord
  split
  · exact .refl s
  · exact pursueRecord_keeps s _ _ _ _ _

theorem takeMark_keeps (offset : Byte) : Keeps s (takeMark offset s).after := by
  unfold takeMark
  split
  · exact .refl s
  · split
    · exact (setPendant_keeps s (p := { s.pendant with markCounter := nextMark s.pendant.markCounter }) id).trans (setContext_keeps _ _)
    · exact .refl s

/-! ### Every command -/

theorem exec_resetnLow_completes : Completes s (exec .resetnLow s) :=
  execResetnLow_completes s

theorem exec_resetnRise_completes : Completes s (exec .resetnRise s) :=
  execResetnRise_completes s

theorem exec_emptyTransaction_completes (clocks : Nat) : Completes s (exec (.emptyTransaction clocks) s) :=
  clocked_completes s (.emptyTransaction clocks) (f := fun u => u) fun _ => Or.inl rfl

theorem exec_readTransaction_completes (rest : List Byte) : Completes s (exec (.readTransaction rest) s) :=
  clocked_completes s (.readTransaction rest) fun u => endRead_cases u _

theorem exec_badframe_completes (bytes : List Byte) : Completes s (exec (.badframe bytes) s) :=
  station_completes s (.badframe bytes) (take := fun u => bare u .badFrame) fun u => .refl u

theorem exec_unknown_completes (code : Byte) (payload : List Byte) : Completes s (exec (.unknown code payload) s) :=
  station_completes s (.unknown code payload) (take := fun u => bare u .unknown) fun u => .refl u

theorem exec_create_completes (kind : Byte) (cls : Byte) : Completes s (exec (.create kind cls) s) :=
  station_completes s _ fun u => takeCreate_keeps u _ _

theorem exec_retire_completes (slot : Byte) (gen : Byte) : Completes s (exec (.retire slot gen) s) :=
  settled_completes s _ fun u => takeRetire_keeps u _ _

theorem exec_read_completes (slot : Byte) (gen : Byte) (group : Byte) : Completes s (exec (.read slot gen group) s) :=
  station_completes s _ fun u => takeRead_keeps u _ _ _

theorem exec_setParameters_completes (slot : Byte) (gen : Byte) (x : Byte) (w : BitVec 16) (c : BitVec 16) (f : BitVec 16) (r : Byte) (l : BitVec 16) :
    Completes s (exec (.setParameters slot gen x w c f r l) s) :=
  station_completes s _ fun u => withSelector_keeps u fun h r _ => setParametersOf_keeps u h r _

theorem exec_setReference_completes (slot : Byte) (gen : Byte) (x : Byte) (az : BitVec 32) (el : BitVec 32) (rg : BitVec 32) (a : BitVec 16) (t : BitVec 32) :
    Completes s (exec (.setReference slot gen x az el rg a t) s) :=
  station_completes s _ fun u => withSelector_keeps u fun _ _ ok => setReferenceOf_keeps u (lookupOwned_live u ok) _ _ _

theorem exec_setReferenceRemoval_completes (slot : Byte) (gen : Byte) (x : Byte) : Completes s (exec (.setReferenceRemoval slot gen x) s) :=
  station_completes s _ fun u => withSelector_keeps u fun h r _ => removeReferenceOf_keeps u h r

theorem exec_setHold_completes (slot : Byte) (gen : Byte) (x : Byte) (v : Byte) : Completes s (exec (.setHold slot gen x v) s) :=
  station_completes s _ fun u => takeSetHold_keeps u _ _ _ _

theorem exec_setAutoResume_completes (slot : Byte) (gen : Byte) (v : Byte) : Completes s (exec (.setAutoResume slot gen v) s) :=
  station_completes s _ fun u => takeSetAutoResume_keeps u _ _ _

theorem exec_changeKind_completes (slot : Byte) (gen : Byte) (x : Byte) (y : Byte) : Completes s (exec (.changeKind slot gen x y) s) :=
  station_completes s _ fun u => takeChangeKind_keeps u _ _ _ _

theorem exec_take_completes (slot : Byte) (gen : Byte) : Completes s (exec (.take slot gen) s) :=
  station_completes s _ fun u => takeTake_keeps u _ _

theorem exec_give_completes (slot : Byte) (gen : Byte) : Completes s (exec (.give slot gen) s) :=
  station_completes s _ fun u => takeGive_keeps u _ _

theorem exec_windows_completes (x : Byte) (sb : Byte) (sl : Byte) (pb : Byte) (pl : Byte) : Completes s (exec (.windows x sb sl pb pl) s) :=
  settled_completes s _ fun u => takeWindows_keeps u _ _ _ _ _

theorem exec_classEntryRead_completes (cls : Byte) : Completes s (exec (.classEntryRead cls) s) := by
  refine station_completes s _ fun u => ?_
  unfold takeClassEntryRead
  split <;> exact .refl u

theorem exec_classEntryWrite_completes (cls : Byte) (a : BitVec 16) (b : BitVec 16) (d : BitVec 16) (e : BitVec 16) (f : BitVec 16) (g : BitVec 16) :
    Completes s (exec (.classEntryWrite cls a b d e f g) s) :=
  station_completes s _ fun u => takeClassEntryWrite_keeps u _ _ _ _ _ _ _

theorem exec_changeClass_completes (slot : Byte) (gen : Byte) (cls : Byte) : Completes s (exec (.changeClass slot gen cls) s) :=
  station_completes s _ fun u => takeChangeClass_keeps u _ _ _

theorem exec_pursue_completes (slot : Byte) (gen : Byte) (flags : Byte) (pr : Byte) (az : BitVec 32) (el : BitVec 32) :
    Completes s (exec (.pursue slot gen flags pr az el) s) :=
  settled_completes s _ fun u => takePursue_keeps u _ _ _ _ _ _

theorem exec_release_completes (slot : Byte) (gen : Byte) : Completes s (exec (.release slot gen) s) :=
  settled_completes s _ fun u => takeRelease_keeps u _ _

theorem exec_priorityRead_completes (o : Byte) : Completes s (exec (.priorityRead o) s) := by
  refine station_completes s _ fun u => ?_
  unfold takePriorityRead
  split <;> exact .refl u

theorem exec_priorityWrite_completes (o : Byte) (v : Byte) : Completes s (exec (.priorityWrite o v) s) :=
  station_completes s _ fun u => takePriorityWrite_keeps u _ _

theorem exec_park_completes : Completes s (exec .park s) :=
  settled_completes s _ takePark_keeps

theorem exec_unpark_completes : Completes s (exec .unpark s) :=
  settled_completes s _ takeUnpark_keeps

theorem exec_beamStatus_completes : Completes s (exec .beamStatus s) :=
  station_completes s .beamStatus (take := fun u => answered u .ok u.beamStatusPayload) fun u => .refl u

theorem exec_setRevisit_completes (slot : Byte) (gen : Byte) (p : BitVec 16) : Completes s (exec (.setRevisit slot gen p) s) :=
  station_completes s _ fun u => onRecord_keeps u fun _ _ ok => setRevisitOf_keeps u (lookupOwned_live u ok) _

theorem exec_revisitEntry_completes (p : Byte) : Completes s (exec (.revisitEntry p) s) := by
  refine station_completes s _ fun u => ?_
  unfold takeRevisitEntry
  split
  · exact .refl u
  · split <;> exact .refl u

theorem exec_syncRead_completes : Completes s (exec .syncRead s) :=
  station_completes s .syncRead (take := fun u => answered u .ok (bytes6 u.reportedNow ++ bytes6 u.time.offset)) fun u => .refl u

theorem exec_syncWrite_completes (v : BitVec 64) : Completes s (exec (.syncWrite v) s) :=
  station_completes s _ fun u => takeSyncWrite_keeps u _

theorem exec_portStatus_completes : Completes s (exec .portStatus s) :=
  station_completes s .portStatus (take := fun u => answered u .ok u.portStatusPayload) fun u => .refl u

theorem exec_noticeControlRead_completes : Completes s (exec .noticeControlRead s) :=
  station_completes s .noticeControlRead (take := fun u => answered u .ok [u.notices.recordMask, u.notices.deviceMask.setWidth 8, flagByte u.notices.master]) fun u => .refl u

theorem exec_noticeControlWrite_completes (rm : Byte) (dm : Byte) (m : Byte) : Completes s (exec (.noticeControlWrite rm dm m) s) :=
  station_completes s _ fun u => takeNoticeControlWrite_keeps u _ _ _

theorem exec_nextNotice_completes : Completes s (exec .nextNotice s) :=
  station_completes s _ takeNextNotice_keeps

theorem exec_deviceStatus_completes : Completes s (exec .deviceStatus s) :=
  station_completes s .deviceStatus (take := fun u => answered u.clearCounters .ok u.deviceStatusPayload) clearCounters_keeps

theorem exec_scan_completes (start : Byte) (direction : Byte) (count : Byte) (condition : ConditionBytes) :
    Completes s (exec (.scan start direction count condition) s) := by
  refine station_completes s _ fun u => ?_
  unfold takeScan
  split
  · split <;> exact .refl u
  · exact .refl u

theorem exec_sweep_completes (start : Byte) (direction : Byte) (count : Byte) (condition : ConditionBytes) (action : Byte) :
    Completes s (exec (.sweep start direction count condition action) s) :=
  station_completes s _ fun u => takeSweep_keeps u _ _ _ _ _

theorem exec_sweepStatus_completes : Completes s (exec .sweepStatus s) :=
  station_completes s .sweepStatus (take := fun u => answered u .ok u.sweep.statusBytes) fun u => .refl u

theorem exec_sweepStop_completes : Completes s (exec .sweepStop s) :=
  station_completes s _ takeSweepStop_keeps

/-- A bare answer adds nothing to what a command does. -/
theorem bare_keeps {s t : State} (a : Answer) (keeps : Keeps s t) : Keeps s (bare t a).1 := keeps

theorem exec_reset_completes : Completes s (exec .reset s) :=
  station_completes s .reset (take := fun u => bare u.takeReset .ok) fun u => bare_keeps .ok (takeReset_keeps u)

theorem exec_sweepStep_completes : Completes s (exec .sweepStep s) := by
  refine ownEvent_completes s (f := fun u => match u.sweep.inFlight with | some sw => u.sweepStep sw | none => u) fun u => ?_
  split
  · exact sweepStep_keeps u _
  · exact .refl u

theorem exec_detectorFrame_completes (f : Frame) : Completes s (exec (.detectorFrame f) s) :=
  ownEvent_completes s (f := fun u => u.takeFrame f) fun u => takeFrame_keeps u f

theorem exec_arrived_completes (tag : Byte) : Completes s (exec (.arrived tag) s) :=
  ownEvent_completes s (f := fun u => u.takeArrived tag) fun u => takeArrived_keeps u tag

theorem exec_driveFault_completes (tag : Byte) (why : DriveFaultReason) : Completes s (exec (.driveFault tag why) s) :=
  ownEvent_completes s (f := fun u => u.takeFault tag) fun u => takeFault_keeps u tag

theorem exec_reading_completes (tag : Byte) (distance : Nat) : Completes s (exec (.reading tag distance) s) :=
  ownEvent_completes s (f := fun u => u.takeReading tag distance) fun u => takeReading_keeps u tag distance

theorem exec_fail_completes (tag : Byte) (why : RangeFailReason) : Completes s (exec (.fail tag why) s) :=
  ownEvent_completes s (f := fun u => u.takeFail tag) fun u => takeFail_keeps u tag

theorem exec_rangeTimeout_completes : Completes s (exec .rangeTimeout s) :=
  ownEvent_completes s (f := State.takeRangeTimeout) takeRangeTimeout_keeps

theorem exec_coastDeadlineExpiry_completes : Completes s (exec .coastDeadlineExpiry s) :=
  ownEvent_completes s (f := fun u => if u.coastExpired then u.takeCoastExpiry else u) fun u => .ite (takeCoastExpiry_keeps u) (.refl u)

theorem exec_searchDeadlineExpiry_completes : Completes s (exec .searchDeadlineExpiry s) :=
  ownEvent_completes s (f := fun u => if u.searchExpired then u.pursuitLost else u) fun u => .ite (pursuitLost_keeps u) (.refl u)

theorem exec_fixWaitExpiry_completes : Completes s (exec .fixWaitExpiry s) :=
  ownEvent_completes s (f := fun u => if u.fixWaitExpired then u.takeFixWaitExpiry else u) fun u => .ite (takeFixWaitExpiry_keeps u) (.refl u)

theorem exec_dueTimeExpiry_completes : Completes s (exec .dueTimeExpiry s) :=
  ownEvent_completes s (f := State.takeDueExpiry) takeDueExpiry_keeps

theorem exec_pendantFrameError_completes (e : PendantError) : Completes s (exec (.pendantFrameError e) s) :=
  whenUp_completes s 0 (f := fun u => u.takeFrameError e) fun u => takeFrameError_keeps u e

theorem exec_poll_completes (p : List Byte) : Completes s (exec (.poll p) s) :=
  pendantEvent_completes s _ _ (take := fun u => u.onOffset (offsetOf p) false fun _ _ => (u, .ok)) fun u =>
    onOffset_keeps u fun _ _ => .refl u

theorem exec_claimNew_completes (p : List Byte) : Completes s (exec (.claimNew p) s) :=
  pendantEvent_completes s _ _ (take := takeClaimNew) takeClaimNew_keeps

theorem exec_find_completes (p : List Byte) : Completes s (exec (.find p) s) :=
  pendantEvent_completes s _ _ (take := fun u => u.onOffset (offsetOf p) true u.findRecord) fun u =>
    onOffset_keeps u fun h r => findRecord_keeps u h r

theorem exec_letGo_completes (p : List Byte) : Completes s (exec (.letGo p) s) :=
  pendantEvent_completes s _ _ (take := fun u => u.onOffset (offsetOf p) true u.releaseRecord) fun u =>
    onOffset_keeps u fun h r => releaseRecord_keeps u h r

theorem exec_holdOn_completes (p : List Byte) : Completes s (exec (.holdOn p) s) :=
  pendantEvent_completes s _ _ (take := fun u => u.onOffset (offsetOf p) true (fun h r => u.setHoldOf h r true)) fun u =>
    onOffset_keeps u fun h r => setHoldOf_keeps u h r true

theorem exec_holdOff_completes (p : List Byte) : Completes s (exec (.holdOff p) s) :=
  pendantEvent_completes s _ _ (take := fun u => u.onOffset (offsetOf p) true (fun h r => u.setHoldOf h r false)) fun u =>
    onOffset_keeps u fun h r => setHoldOf_keeps u h r false

theorem exec_mark_completes (p : List Byte) : Completes s (exec (.mark p) s) :=
  pendantEvent_completes s _ _ (take := takeMark (offsetOf p)) fun u => takeMark_keeps u _

theorem exec_drop_completes (p : List Byte) : Completes s (exec (.drop p) s) :=
  pendantEvent_completes s _ _ (take := fun u => u.onOffset (offsetOf p) true u.retireRecord) fun u =>
    onOffset_keeps u fun h r => retireRecord_keeps u h r

theorem exec_pendantSilenceExpiry_completes : Completes s (exec .pendantSilenceExpiry s) :=
  ownEvent_completes s (f := fun u => if u.silenceExpired then u.takeSilence else u) fun u => .ite (takeSilence_keeps u) (.refl u)

theorem exec_statusFrameSent_completes : Completes s (exec .statusFrameSent s) :=
  whenUp_completes s 0 (f := fun u => u.setPendant u.pendant.sent) fun u => setPendant_keeps u (length_sent_waiting u.pendant)

theorem exec_lineReturnToIdle_completes : Completes s (exec .lineReturnToIdle s) := 
  whenUp_completes s 0 (f := fun u => u.setPendant { u.pendant with inBreak := false }) fun u => setPendant_keeps u id

/-- Every command completes, leaves the queue of commands alone and keeps what every step keeps. -/
theorem exec_completes (c : Instr) : Completes s (exec c s) := by
  cases c with
  | resetnLow => exact exec_resetnLow_completes s
  | resetnRise => exact exec_resetnRise_completes s
  | emptyTransaction => exact exec_emptyTransaction_completes s _
  | readTransaction => exact exec_readTransaction_completes s _
  | badframe => exact exec_badframe_completes s _
  | unknown => exact exec_unknown_completes s _ _
  | create => exact exec_create_completes s _ _
  | retire => exact exec_retire_completes s _ _
  | read => exact exec_read_completes s _ _ _
  | setParameters => exact exec_setParameters_completes s _ _ _ _ _ _ _ _
  | setReference => exact exec_setReference_completes s _ _ _ _ _ _ _ _
  | setReferenceRemoval => exact exec_setReferenceRemoval_completes s _ _ _
  | setHold => exact exec_setHold_completes s _ _ _ _
  | setAutoResume => exact exec_setAutoResume_completes s _ _ _
  | changeKind => exact exec_changeKind_completes s _ _ _ _
  | take => exact exec_take_completes s _ _
  | give => exact exec_give_completes s _ _
  | windows => exact exec_windows_completes s _ _ _ _ _
  | classEntryRead => exact exec_classEntryRead_completes s _
  | classEntryWrite => exact exec_classEntryWrite_completes s _ _ _ _ _ _ _
  | changeClass => exact exec_changeClass_completes s _ _ _
  | pursue => exact exec_pursue_completes s _ _ _ _ _ _
  | release => exact exec_release_completes s _ _
  | priorityRead => exact exec_priorityRead_completes s _
  | priorityWrite => exact exec_priorityWrite_completes s _ _
  | park => exact exec_park_completes s
  | unpark => exact exec_unpark_completes s
  | beamStatus => exact exec_beamStatus_completes s
  | setRevisit => exact exec_setRevisit_completes s _ _ _
  | revisitEntry => exact exec_revisitEntry_completes s _
  | syncRead => exact exec_syncRead_completes s
  | syncWrite => exact exec_syncWrite_completes s _
  | portStatus => exact exec_portStatus_completes s
  | noticeControlRead => exact exec_noticeControlRead_completes s
  | noticeControlWrite => exact exec_noticeControlWrite_completes s _ _ _
  | nextNotice => exact exec_nextNotice_completes s
  | deviceStatus => exact exec_deviceStatus_completes s
  | scan => exact exec_scan_completes s _ _ _ _
  | sweep => exact exec_sweep_completes s _ _ _ _ _
  | sweepStatus => exact exec_sweepStatus_completes s
  | sweepStop => exact exec_sweepStop_completes s
  | reset => exact exec_reset_completes s
  | sweepStep => exact exec_sweepStep_completes s
  | detectorFrame => exact exec_detectorFrame_completes s _
  | arrived => exact exec_arrived_completes s _
  | driveFault => exact exec_driveFault_completes s _ _
  | reading => exact exec_reading_completes s _ _
  | fail => exact exec_fail_completes s _ _
  | rangeTimeout => exact exec_rangeTimeout_completes s
  | coastDeadlineExpiry => exact exec_coastDeadlineExpiry_completes s
  | searchDeadlineExpiry => exact exec_searchDeadlineExpiry_completes s
  | fixWaitExpiry => exact exec_fixWaitExpiry_completes s
  | dueTimeExpiry => exact exec_dueTimeExpiry_completes s
  | pendantFrameError => exact exec_pendantFrameError_completes s _
  | poll => exact exec_poll_completes s _
  | claimNew => exact exec_claimNew_completes s _
  | find => exact exec_find_completes s _
  | letGo => exact exec_letGo_completes s _
  | holdOn => exact exec_holdOn_completes s _
  | holdOff => exact exec_holdOff_completes s _
  | mark => exact exec_mark_completes s _
  | drop => exact exec_drop_completes s _
  | pendantSilenceExpiry => exact exec_pendantSilenceExpiry_completes s
  | statusFrameSent => exact exec_statusFrameSent_completes s
  | lineReturnToIdle => exact exec_lineReturnToIdle_completes s

/-- A step completes and keeps what every step keeps. -/
theorem step_keeps {s' : State} (stepped : step s = .next s') :
    (TableFits s → TableFits s') ∧ (LinesFit s → LinkLegal s → LinesFit s' ∧ LinkLegal s') := by
  have ran (c : Instr) (u : State) (same : exec c u = .next s') :
      (TableFits u → TableFits s') ∧ (LinesFit u → LinkLegal u → LinesFit s' ∧ LinkLegal s') := by
    obtain ⟨t, next, -, table, lines⟩ := exec_completes u c
    obtain rfl : t = s' := by rw [same] at next; exact (Host.Outcome.next.inj next).symm
    exact ⟨table, lines⟩
  unfold step at stepped
  split at stepped
  · rename_i i rest _
    exact ran i (s.setPending rest) stepped
  · unfold State.idle at stepped
    split at stepped
    · cases stepped
      exact ⟨id, fun lines link => ⟨lines, link⟩⟩
    · split at stepped
      · exact ran _ s stepped
      · cases stepped
        exact ⟨id, fun lines link => ⟨lines, link⟩⟩

end Sys2Proof.Machine

open Sys2Proof Sys2Proof.Machine

/-- Settles O57: every command keeps the records, whatever its operands and whatever state it finds. -/
theorem stepKeepsRecords : Obligations.StepKeepsRecords := fun s _ fits stepped => (step_keeps s stepped).1 fits

/-- Settles O58: every command keeps the lines, the tables, the stores and the list; a command that writes a notice judges the line after it. -/
theorem stepKeepsLinesAndBounds : Obligations.StepKeepsLinesAndBounds := by
  rintro s s' ⟨told, link, tables, bounded, list⟩ stepped
  obtain ⟨⟨told', tables', bounded', list'⟩, link'⟩ := (step_keeps s stepped).2 ⟨told, tables, bounded, list⟩ link
  exact ⟨told', link', tables', bounded', list'⟩

/-- Settles O3: no command faults or is refused. -/
theorem everyCommandCompletes : Obligations.EveryCommandCompletes := fun c s => by
  obtain ⟨t, next, pending, -⟩ := exec_completes s c
  exact ⟨t, next, pending⟩

/-- Settles O60: the power-on condition has the properties, and the rise of RESETN sends a HALT and touches nothing they read. -/
theorem resetIsLegal : Obligations.ResetIsLegal := by
  obtain ⟨⟨home, windows, records⟩, ⟨told, tables, bounded, list⟩, link⟩ := powerOn_fits
  have dormant : ∀ i r, State.reset.recordAt i = some r → r.state = .dormant := fun i r held => by
    have same : State.reset.recordAt i = State.powerOn.recordAt i := rfl
    rw [same, recordAt_powerOn] at held
    split at held
    · cases held; rfl
    · cases held
  have unpursued : ∀ c, State.reset.pursuit ≠ some c := fun _ hc => by cases hc
  have ungranted : ∀ g, State.reset.arbiter.grant ≠ some g := fun _ hg => by cases hg
  refine ⟨home, windows, records, told, link, tables, bounded, list, ⟨fun _ => ⟨rfl, rfl, rfl⟩, rfl, Nat.zero_le _, Nat.zero_le _, rfl⟩,
    ⟨by simp [State.reset, State.powerOn], by simp [State.reset, State.powerOn], fun c hc => absurd hc (unpursued c), fun g c hg => absurd hg (ungranted g),
      fun i r held hs => ?_, fun i r held hs => ?_, fun i r st held hs => ?_, List.nodup_nil, List.nodup_nil⟩,
    by simp [OffersStand, State.reset, State.powerOn],
    ⟨fun _ => ⟨rfl, rfl⟩, fun g _ e he => absurd he List.not_mem_nil, List.nodup_nil, by simp [State.reset, State.powerOn], by decide⟩⟩
  all_goals
    rw [dormant i r held] at hs
    cases hs

end

section
/-! The machine as a whole: what a step does with no command waiting, what RESETN low leaves and what its rise does, and the transactions that reach no block
(R24, R125, R140, R175, R176, R178). -/

namespace Sys2Proof.Machine

variable {s : State}

/-! ### The part's own deadlines (R140, log 2) -/

theorem reached_iff {t : Time} : reached s.now t = true ↔ DeadlineReached s t := decide_eq_true_iff

theorem rangeExpired_iff : s.rangeExpired = true ↔ ∃ q, s.ports.outstanding = some q ∧ DeadlineReached s q.deadline := by
  rw [State.rangeExpired]
  cases s.ports.outstanding <;> simp [reached_iff]

theorem coastExpired_iff : s.coastExpired = true ↔ ∃ c d, s.pursuit = some c ∧ c.coastDeadline = some d ∧ DeadlineReached s d := by
  rw [State.coastExpired]
  cases s.pursuit with
  | none => simp
  | some c => cases h : c.coastDeadline <;> simp [h, reached_iff]

theorem searchExpired_iff : s.searchExpired = true ↔ ∃ c sr, s.pursuit = some c ∧ c.search = some sr ∧ DeadlineReached s sr.deadline := by
  rw [State.searchExpired]
  cases s.pursuit with
  | none => simp
  | some c => cases h : c.search <;> simp [h, reached_iff]

theorem fixWaitExpired_iff : s.fixWaitExpired = true ↔ ∃ c d, s.pursuit = some c ∧ c.fixWait = some d ∧ DeadlineReached s d := by
  rw [State.fixWaitExpired]
  cases s.pursuit with
  | none => simp
  | some c => cases h : c.fixWait <;> simp [h, reached_iff]

theorem dueEntry_isSome_iff : s.dueEntry.isSome = true ↔ ∃ e ∈ s.scheduler.entries, e.status = .scheduled ∧ DeadlineReached s e.due := by
  simp [State.dueEntry, List.find?_isSome, reached_iff]

theorem silenceExpired_iff : s.silenceExpired = true ↔ ∃ d, s.pendant.silenceDeadline = some d ∧ DeadlineReached s d := by
  rw [State.silenceExpired]
  cases s.pendant.silenceDeadline <;> simp [reached_iff]

/-- With no command waiting, a step is the part's own event, or one µs. -/
theorem step_idle (empty : s.pending = []) : step s = s.idle := by
  rw [step, empty]

/-- With RESETN high the part's own event is run. -/
theorem idle_event {i : Instr} (up : s.resetnLow = false) (event : s.nextEvent = some i) : s.idle = exec i s := by
  simp [State.idle, up, event]

theorem idle_count (up : s.resetnLow = false) (none : s.nextEvent = none) : s.idle = .next s.count := by
  simp [State.idle, up, none]

/-! ### RESETN low (R24, R175) -/

variable (s)

/-- While RESETN is low an event leaves the zeros shifted out at its clocks. -/
theorem quiet_shiftOut_none (n : Nat) :
    s.quiet.shiftOut none n = { sentNothing s with link := { s.link with sdo := List.replicate n false, sdoNext := 0 } } := by
  simp only [State.shiftOut, sdoBits_none, sdoStream_none]
  rfl

variable {s}

/-- No command but the pin's own has an effect while RESETN is low, but for the zeros it shifts out. -/
theorem exec_low (c : Instr) (low : s.resetnLow = true) (notLow : c ≠ .resetnLow) (notRise : c ≠ .resetnRise) :
    exec c s = .next { sentNothing s with link := { s.link with sdo := List.replicate (clocksOf c) false, sdoNext := 0 } } := by
  rw [← quiet_shiftOut_none]
  obtain ⟨resetnLow⟩ := s
  obtain rfl : resetnLow = true := low
  cases c
  case resetnLow => exact absurd rfl notLow
  case resetnRise => exact absurd rfl notRise
  all_goals rfl

/-- The rise of RESETN sends a HALT. -/
theorem exec_resetnRise_low (low : s.resetnLow = true) :
    exec .resetnRise s = .next { sentNothing s with
      resetnLow := false
      ports := { s.ports with latestMoveTag := none, driveOut := [.halt], rangeOut := [] } } := by
  have unfolded : exec .resetnRise s = .next (if s.resetnLow then s.rise else s) := rfl
  rw [unfolded, if_pos low]
  rfl

theorem exec_resetnRise_high (up : s.resetnLow = false) : exec .resetnRise s = .next s := by
  have unfolded : exec .resetnRise s = .next (if s.resetnLow then s.rise else s) := rfl
  rw [unfolded, if_neg (by simp [up])]

/-- The power-on condition while commands wait. -/
def State.powerOnWith (pending : List Instr) : State := { State.powerOn with pending := pending }

theorem exec_resetnLow : exec .resetnLow s = .next (State.powerOnWith s.pending) := rfl

theorem slotAt_powerOnWith (pending : List Instr) (i : Fin 48) :
    (State.powerOnWith pending).slotAt i
      = if i = 0 then { generation := 0, record := some Record.powerOnHome } else { generation := 0, record := none } := slotAt_powerOn i

/-- The first UNPARK after the rise: HOME has no reference and no entry is DUE, so that the run of the model ends with nothing granted (R24, R100). -/
theorem firstUnpark (pending : List Instr) :
    ∃ u v, exec .resetnRise (State.powerOnWith pending) = .next u ∧ exec .unpark u = .next v ∧ answersPlainly v .ok
      ∧ v.arbiter.runMode = .running ∧ v.arbiter.queue = [] ∧ v.arbiter.grant = none ∧ v.pursuit = none :=
  ⟨_, _, rfl, rfl, ⟨rfl, rfl⟩, rfl, rfl, rfl, rfl⟩

/-! ### Transactions that reach no block (R176, R178) -/

theorem exec_emptyTransaction_high (n : Nat) (up : s.resetnLow = false) :
    exec (.emptyTransaction n) s = .next { sentNothing s with link :=
      { received := [], more := false, response := s.link.response, ready := s.link.ready
        sdo := sdoBits s.link.response n, sdoNext := sdoStream s.link.response (n / 8) } } := by
  have unfolded : exec (.emptyTransaction n) s = s.whenUp n (·.transact (.emptyTransaction n)) := rfl
  rw [unfolded, whenUp_high _ _ _ up]
  rfl

/-- A command that is answered and does nothing else. -/
theorem station_answers {i : Instr} {take : State → State × Response} {x : Response} (up : s.resetnLow = false)
    (answer : take (s.atRise i) = (s.atRise i, x)) : s.station i take = .next (answeredBy s i x s) := by
  rw [station_high s _ _ up, answer, respond_atRise]

/-- A bad frame is answered BADFRAME and reaches no block. -/
theorem exec_badframe (bytes : List Byte) (up : s.resetnLow = false) :
    exec (.badframe bytes) s = .next (answeredBy s (.badframe bytes) (noPayload .badFrame) s) :=
  station_answers (take := fun s => bare s .badFrame) up (bare_eq _ _)

/-- A frame of an unknown code is answered UNKNOWN and reaches no block. -/
theorem exec_unknown (code : Byte) (payload : List Byte) (up : s.resetnLow = false) :
    exec (.unknown code payload) s = .next (answeredBy s (.unknown code payload) (noPayload .unknown) s) :=
  station_answers (take := fun s => bare s .unknown) up (bare_eq _ _)

/-- Every transaction but an empty one has eight clocks for each of its bytes. -/
theorem clocksOf_eq {c : Instr} {bytes : List Byte} (spelt : transactionBytes c = some bytes) (whole : ∀ n, c ≠ .emptyTransaction n) :
    clocksOf c = 8 * bytes.length := by
  unfold clocksOf
  split
  · exact absurd rfl (whole _)
  · rw [clockedBytes, spelt, Option.getD_some]

end Sys2Proof.Machine

open Sys2Proof Sys2Proof.Machine

/-- Settles O1: the command at the front of the queue is the one the step runs. -/
theorem stepRunsFrontCommand : Obligations.StepRunsFrontCommand := fun _ _ _ => rfl

/-- Settles O2: each deadline's test says whether it is reached, and the first that says so decides the event. -/
theorem idleStep : Obligations.IdleStep := by
  intro s empty range coast search wait due silence
  have not_range (h : ¬range) : s.rangeExpired = false := by rwa [← Bool.not_eq_true, rangeExpired_iff]
  have not_coast (h : ¬coast) : s.coastExpired = false := by rwa [← Bool.not_eq_true, coastExpired_iff]
  have not_search (h : ¬search) : s.searchExpired = false := by rwa [← Bool.not_eq_true, searchExpired_iff]
  have not_wait (h : ¬wait) : s.fixWaitExpired = false := by rwa [← Bool.not_eq_true, fixWaitExpired_iff]
  have not_due (h : ¬due) : s.dueEntry.isSome = false := by rwa [← Bool.not_eq_true, dueEntry_isSome_iff]
  have not_silence (h : ¬silence) : s.silenceExpired = false := by rwa [← Bool.not_eq_true, silenceExpired_iff]
  rw [step_idle empty]
  refine ⟨fun low => by simp [State.idle, low], fun up => ⟨fun h => ?_, fun r h => ?_, fun r c h => ?_, fun r c e h => ?_, fun r c e w h => ?_,
    fun r c e w d h => ?_, fun r c e w d i => ⟨fun h => ?_, fun h => ?_⟩⟩⟩
  · exact idle_event up (by simp [State.nextEvent, rangeExpired_iff.mpr h])
  · exact idle_event up (by simp [State.nextEvent, not_range r, coastExpired_iff.mpr h])
  · exact idle_event up (by simp [State.nextEvent, not_range r, not_coast c, searchExpired_iff.mpr h])
  · exact idle_event up (by simp [State.nextEvent, not_range r, not_coast c, not_search e, fixWaitExpired_iff.mpr h])
  · exact idle_event up (by simp [State.nextEvent, not_range r, not_coast c, not_search e, not_wait w, dueEntry_isSome_iff.mpr h])
  · exact idle_event up (by simp [State.nextEvent, not_range r, not_coast c, not_search e, not_wait w, not_due d, silenceExpired_iff.mpr h])
  · exact idle_event up (by
      simp [State.nextEvent, not_range r, not_coast c, not_search e, not_wait w, not_due d, not_silence i, Option.isSome_iff_ne_none, h])
  · exact idle_count up (by simp [State.nextEvent, not_range r, not_coast c, not_search e, not_wait w, not_due d, not_silence i, h])

/-- Settles O4: the fields of the condition are read off its definition; every other command finds RESETN low. -/
theorem powerOnCondition : Obligations.PowerOnCondition := by
  intro s
  refine ⟨_, exec_resetnLow, rfl, rfl, fun i other => ?_, ?_, rfl, rfl, rfl, fun c => ?_, rfl, rfl, rfl, rfl, rfl, rfl, rfl, rfl, rfl, rfl, rfl, rfl,
    fun i => ?_, rfl, rfl, rfl, fun c notRise => ?_, firstUnpark s.pending⟩
  · rw [slotAt_powerOnWith, if_neg other]
  · rw [slotAt_powerOnWith, if_pos rfl]
    rfl
  · simp [State.powerOnWith, State.powerOn, ClassEntry.powerOn]
  · simp [State.powerOnWith, State.powerOn]
  · by_cases again : c = .resetnLow
    · subst again
      rfl
    · exact exec_low c rfl again notRise

/-- Settles O5: whatever the command, RESETN low leaves the zeros shifted out; the rise is taken only while RESETN is low. -/
theorem resetnPin : Obligations.ResetnPin := fun _ =>
  ⟨fun low c notLow notRise => exec_low c low notLow notRise, exec_resetnRise_low, exec_resetnRise_high⟩

/-- Settles O7: an empty transaction shifts the pending response's first bits out and leaves it; the other two are answered without a block's work. -/
theorem transactionsThatReachNoBlock : Obligations.TransactionsThatReachNoBlock := by
  intro s up
  refine ⟨fun n => ⟨_, exec_emptyTransaction_high n up, rfl, rfl, rfl, rfl, rfl, sdoBits_length _ _, fun r b pending clocked bit => ?_, fun absent => ?_⟩,
    fun bytes => exec_badframe bytes up, fun code payload => exec_unknown code payload up, fun c bytes => clocksOf_eq⟩
  · have := sdoBits_bit s.link.response (n := 0) bit (by omega : 8 * 0 + b < n)
    rw [pending, sdoStream_some] at this
    simpa [pending] using this
  · simp [absent]

end

section
/-! The table's and the class table's requests of chapters 1 and 2: the handle checks and their refusals, and what CREATE, READ, SET, CHANGE-KIND, GIVE, CLASS-ENTRY
and CHANGE-CLASS write (R2, R6, R9 to R18, R30, R31). Each request is read once as a function of the state it is taken in, then as a whole event. -/

namespace Sys2Proof.Machine

variable {s : State}

/-! ### How a station command comes out -/

/-- A station command leaves what its block makes of the state, with its answer pending. -/
theorem station_leaves {i : Instr} {take : State → State × Response} {x : Response} {t t' : State} (up : s.resetnLow = false)
    (taken : take (s.atRise i) = (t', x)) (left : t'.respond x = answeredBy s i x t) : s.station i take = .next (answeredBy s i x t) := by
  rw [station_high s _ _ up, taken, left]

/-- A request that changes nothing and leaves no trigger is followed by no pass. -/
theorem settled_unchanged {take : State → State × Response} {x : Response} (calm : s.scheduler.passWanted = false)
    (taken : take s = (s, x)) : settled take s = (s, x) := by
  rw [settled, taken]
  exact congrArg (·, x) (settle_calm s calm le_rfl)

theorem onRecord_error (a : Answer) (take : Handle → Record → State × Response) : s.onRecord (.error a) take = (s, noPayload a) := rfl

theorem withSelector_same {selector wanted : Byte} (same : selector = wanted) (found : Except Answer (Handle × Record))
    (take : Handle → Record → State × Response) : withSelector s selector wanted found take = s.onRecord found take := if_pos same

theorem withSelector_other {selector wanted : Byte} (other : selector ≠ wanted) (found : Except Answer (Handle × Record))
    (take : Handle → Record → State × Response) : withSelector s selector wanted found take = (s, noPayload .range) := by
  rw [withSelector, if_neg other, bare_eq]

/-! ### Handles (R2, R6) -/

/-- A byte that spells the number of a slot names that slot. -/
theorem slotOf_eq_some {b : Byte} {i : Fin 48} (named : i.val = b.toNat) : slotOf b = some i := by
  have small : b.toNat < 48 := named ▸ i.isLt
  rw [slotOf, dif_pos small]
  exact congrArg some (Fin.ext named.symm)

section
variable {slot gen : Byte} {i : Fin 48} {r : Record}

theorem lookup_range (above : 48 ≤ slot.toNat) : s.lookup slot gen = .error .range := by
  rw [State.lookup, slotOf, dif_neg (by omega)]

theorem lookup_vacant (named : i.val = slot.toNat) (vacant : s.recordAt i = none) : s.lookup slot gen = .error .vacant := by
  have empty : (s.slotAt i).record = none := vacant
  simp [State.lookup, slotOf_eq_some named, empty]

theorem lookup_stale (named : i.val = slot.toNat) (held : s.recordAt i = some r) (old : (s.slotAt i).generation ≠ gen) :
    s.lookup slot gen = .error .stale := by
  have filled : (s.slotAt i).record = some r := held
  simp [State.lookup, slotOf_eq_some named, filled, old]

theorem lookup_named (named : i.val = slot.toNat) (held : s.recordAt i = some r) (current : (s.slotAt i).generation = gen) :
    s.lookup slot gen = .ok ({ slot := i, generation := gen }, r) := by
  have filled : (s.slotAt i).record = some r := held
  simp [State.lookup, slotOf_eq_some named, filled, current]

/-- A refused handle is refused whoever owns the record. -/
theorem lookupOwned_error {a : Answer} (refused : s.lookup slot gen = .error a) : s.lookupOwned slot gen = .error a := by
  rw [State.lookupOwned, refused]

/-- The station may not change a PENDANT-owned record. -/
theorem lookupOwned_pendant {h : Handle} (ok : s.lookup slot gen = .ok (h, r)) (owned : r.owner = .pendant) :
    s.lookupOwned slot gen = .error .owner := by
  simp [State.lookupOwned, ok, owned]

end

/-! ### The refusals of the requests that name a handle (R2, R6, R9, R183, R184) -/

section
variable {slot gen x y : Byte} {a : Answer} (up : s.resetnLow = false) (calm : s.scheduler.passWanted = false)
include up

theorem refused_take (refused : s.lookup slot gen = .error a) : exec (.take slot gen) s = .next (answeredBy s (.take slot gen) (noPayload a) s) :=
  station_answers (take := takeTake slot gen) up (by rw [takeTake, lookup_atRise, refused, onRecord_error])

theorem refused_give (refused : s.lookup slot gen = .error a) : exec (.give slot gen) s = .next (answeredBy s (.give slot gen) (noPayload a) s) :=
  station_answers (take := takeGive slot gen) up (by rw [takeGive, lookup_atRise, refused, onRecord_error])

theorem refused_read (defined : groupOf x ≠ none) (refused : s.lookup slot gen = .error a) :
    exec (.read slot gen x) s = .next (answeredBy s (.read slot gen x) (noPayload a) s) := by
  obtain ⟨g, spelt⟩ := Option.ne_none_iff_exists'.mp defined
  exact station_answers (take := takeRead slot gen x) up (by simp only [takeRead, spelt, lookup_atRise, refused, onRecord_error])

theorem read_range (undefined : groupOf x = none) : exec (.read slot gen x) s = .next (answeredBy s (.read slot gen x) (noPayload .range) s) :=
  station_answers (take := takeRead slot gen x) up (by rw [takeRead, undefined]; rfl)

theorem refused_setHold (refused : s.lookupOwned slot gen = .error a) :
    exec (.setHold slot gen 2 x) s = .next (answeredBy s (.setHold slot gen 2 x) (noPayload a) s) :=
  station_answers (take := takeSetHold slot gen 2 x) up (by rw [takeSetHold, withSelector_same (selector := 2) (wanted := 2#8) rfl, lookupOwned_atRise, refused, onRecord_error])

theorem refused_setAutoResume (refused : s.lookupOwned slot gen = .error a) :
    exec (.setAutoResume slot gen x) s = .next (answeredBy s (.setAutoResume slot gen x) (noPayload a) s) :=
  station_answers (take := takeSetAutoResume slot gen x) up (by rw [takeSetAutoResume, lookupOwned_atRise, refused, onRecord_error])

theorem refused_changeClass (refused : s.lookupOwned slot gen = .error a) :
    exec (.changeClass slot gen x) s = .next (answeredBy s (.changeClass slot gen x) (noPayload a) s) :=
  station_answers (take := takeChangeClass slot gen x) up (by rw [takeChangeClass, lookupOwned_atRise, refused, onRecord_error])

theorem refused_setRevisit (period : BitVec 16) (refused : s.lookupOwned slot gen = .error a) :
    exec (.setRevisit slot gen period) s = .next (answeredBy s (.setRevisit slot gen period) (noPayload a) s) :=
  station_answers (take := takeSetRevisit slot gen period) up (by rw [takeSetRevisit, lookupOwned_atRise, refused, onRecord_error])

theorem refused_setParameters (w c f l : BitVec 16) (refused : s.lookupOwned slot gen = .error a) :
    exec (.setParameters slot gen 0 w c f x l) s = .next (answeredBy s (.setParameters slot gen 0 w c f x l) (noPayload a) s) :=
  station_answers (take := takeSetParameters slot gen 0 w c f x l) up
    (by rw [takeSetParameters, withSelector_same (selector := 0) (wanted := 0#8) rfl, lookupOwned_atRise, refused, onRecord_error])

theorem refused_setReference (az el range rt : BitVec 32) (at_ : BitVec 16) (refused : s.lookupOwned slot gen = .error a) :
    exec (.setReference slot gen 1 az el range at_ rt) s = .next (answeredBy s (.setReference slot gen 1 az el range at_ rt) (noPayload a) s) :=
  station_answers (take := takeSetReference slot gen 1 az el range at_ rt) up
    (by rw [takeSetReference, withSelector_same (selector := 1) (wanted := 1#8) rfl, lookupOwned_atRise, refused, onRecord_error])

theorem refused_setReferenceRemoval (refused : s.lookupOwned slot gen = .error a) :
    exec (.setReferenceRemoval slot gen 1) s = .next (answeredBy s (.setReferenceRemoval slot gen 1) (noPayload a) s) :=
  station_answers (take := takeSetReferenceRemoval slot gen 1) up
    (by rw [takeSetReferenceRemoval, withSelector_same (selector := 1) (wanted := 1#8) rfl, lookupOwned_atRise, refused, onRecord_error])

theorem refused_changeKind (expected : kindOf x ≠ none) (wanted : kindOf y ≠ none) (refused : s.lookupOwned slot gen = .error a) :
    exec (.changeKind slot gen x y) s = .next (answeredBy s (.changeKind slot gen x y) (noPayload a) s) := by
  obtain ⟨e, spelt⟩ := Option.ne_none_iff_exists'.mp expected
  obtain ⟨w, spelt'⟩ := Option.ne_none_iff_exists'.mp wanted
  exact station_answers (take := takeChangeKind slot gen x y) up
    (by simp only [takeChangeKind, spelt, spelt', lookupOwned_atRise, refused, onRecord_error])

theorem changeKind_range (undefined : kindOf x = none ∨ kindOf y = none) :
    exec (.changeKind slot gen x y) s = .next (answeredBy s (.changeKind slot gen x y) (noPayload .range) s) := by
  refine station_answers (take := takeChangeKind slot gen x y) up ?_
  unfold takeChangeKind
  split
  · rename_i e w expected wanted
    rcases undefined with h | h
    · rw [expected] at h; cases h
    · rw [wanted] at h; cases h
  · rfl

theorem setParameters_selector {k : Byte} (w c f l : BitVec 16) (other : k ≠ 0) :
    exec (.setParameters slot gen k w c f x l) s = .next (answeredBy s (.setParameters slot gen k w c f x l) (noPayload .range) s) :=
  station_answers (take := takeSetParameters slot gen k w c f x l) up (by rw [takeSetParameters, withSelector_other (wanted := 0#8) other])

theorem setReference_selector {k : Byte} (az el range rt : BitVec 32) (at_ : BitVec 16) (other : k ≠ 1) :
    exec (.setReference slot gen k az el range at_ rt) s = .next (answeredBy s (.setReference slot gen k az el range at_ rt) (noPayload .range) s) :=
  station_answers (take := takeSetReference slot gen k az el range at_ rt) up (by rw [takeSetReference, withSelector_other (wanted := 1#8) other])

theorem setReferenceRemoval_selector {k : Byte} (other : k ≠ 1) :
    exec (.setReferenceRemoval slot gen k) s = .next (answeredBy s (.setReferenceRemoval slot gen k) (noPayload .range) s) :=
  station_answers (take := takeSetReferenceRemoval slot gen k) up (by rw [takeSetReferenceRemoval, withSelector_other (wanted := 1#8) other])

theorem setHold_selector {k : Byte} (other : k ≠ 2) :
    exec (.setHold slot gen k x) s = .next (answeredBy s (.setHold slot gen k x) (noPayload .range) s) :=
  station_answers (take := takeSetHold slot gen k x) up (by rw [takeSetHold, withSelector_other (wanted := 2#8) other])

include calm

theorem refused_retire (refused : s.lookupOwned slot gen = .error a) :
    exec (.retire slot gen) s = .next (answeredBy s (.retire slot gen) (noPayload a) s) :=
  station_answers (take := settled (takeRetire slot gen)) up
    (settled_unchanged calm (by rw [takeRetire, lookupOwned_atRise, refused, onRecord_error]))

theorem refused_pursue (az el : BitVec 32) (refused : s.lookup slot gen = .error a) :
    exec (.pursue slot gen x y az el) s = .next (answeredBy s (.pursue slot gen x y az el) (noPayload a) s) :=
  station_answers (take := settled (takePursue slot gen x y az el)) up
    (settled_unchanged calm (by rw [takePursue, lookup_atRise, refused, onRecord_error]))

theorem refused_release (refused : s.lookup slot gen = .error a) :
    exec (.release slot gen) s = .next (answeredBy s (.release slot gen) (noPayload a) s) :=
  station_answers (take := settled (takeRelease slot gen)) up
    (settled_unchanged calm (by rw [takeRelease, lookup_atRise, refused, onRecord_error]))

end

/-! ### Codes that name a value (9.5) -/

theorem kindOf_isSome {b : Byte} (small : b.toNat ≤ 2) : kindOf b ≠ none := by
  have : b = 0#8 ∨ b = 1#8 ∨ b = 2#8 := by bv_omega
  rcases this with rfl | rfl | rfl <;> decide

theorem kindOf_eq_none {b : Byte} (above : 2 < b.toNat) : kindOf b = none := by
  have : b ≠ 0#8 ∧ b ≠ 1#8 ∧ b ≠ 2#8 := by bv_omega
  simp [kindOf, this]

theorem groupOf_isSome {b : Byte} (small : b.toNat ≤ 7) : groupOf b ≠ none := by
  have : b = 0#8 ∨ b = 1#8 ∨ b = 2#8 ∨ b = 3#8 ∨ b = 4#8 ∨ b = 5#8 ∨ b = 6#8 ∨ b = 7#8 := by bv_omega
  rcases this with rfl | rfl | rfl | rfl | rfl | rfl | rfl | rfl <;> decide

theorem groupOf_eq_none {b : Byte} (above : 7 < b.toNat) : groupOf b = none := by
  have : b ≠ 0#8 ∧ b ≠ 1#8 ∧ b ≠ 2#8 ∧ b ≠ 3#8 ∧ b ≠ 4#8 ∧ b ≠ 5#8 ∧ b ≠ 6#8 ∧ b ≠ 7#8 := by bv_omega
  simp [groupOf, this]

end Sys2Proof.Machine

open Sys2Proof Sys2Proof.Machine

/-- Settles O12: the checks decide by the slot the byte names, what it holds and its generation; every request answers what they say and changes nothing. -/
theorem handleChecksRefuse : Obligations.HandleChecksRefuse := by
  intro s slot gen x y period w c f l at_ az el range rt up calm parameters reference removal refuses
  refine ⟨lookup_range, fun i named vacant => lookup_vacant named vacant, fun i r named held old => lookup_stale named held old,
    fun i r named held current => lookup_named named held current, fun a refused => ⟨?_, fun group => refused_read up (groupOf_isSome group) refused,
      fun e w => refused_changeKind up (kindOf_isSome e) (kindOf_isSome w) (lookupOwned_error refused)⟩,
    fun h r ok owned => ⟨?_, fun e w => refused_changeKind up (kindOf_isSome e) (kindOf_isSome w) (lookupOwned_pendant ok owned)⟩,
    fun k => ⟨setParameters_selector up w c f l, fun other => ⟨setReference_selector up az el range rt at_ other, setReferenceRemoval_selector up other⟩,
      setHold_selector up⟩,
    fun above => changeKind_range up (above.imp kindOf_eq_none kindOf_eq_none), fun above => read_range up (groupOf_eq_none above)⟩
  · have owned : s.lookupOwned slot gen = .error a := lookupOwned_error refused
    simp only [List.forall_mem_cons, List.not_mem_nil, false_implies, implies_true, and_true]
    exact ⟨refused_retire up calm owned, refused_setHold up owned, refused_setAutoResume up owned, refused_take up refused, refused_give up refused,
      refused_changeClass up owned, refused_setRevisit up period owned, refused_pursue up calm az el refused, refused_release up calm refused,
      refused_setParameters up w c f l owned, refused_setReference up az el range rt at_ owned, refused_setReferenceRemoval up owned⟩
  · have refused : s.lookupOwned slot gen = .error .owner := lookupOwned_pendant ok owned
    simp only [List.forall_mem_cons, List.not_mem_nil, false_implies, implies_true, and_true]
    exact ⟨refused_retire up calm refused, refused_setHold up refused, refused_setAutoResume up refused, refused_changeClass up refused,
      refused_setRevisit up period refused, refused_setParameters up w c f l refused, refused_setReference up az el range rt at_ refused,
      refused_setReferenceRemoval up refused⟩

end

section
/-! What CREATE, READ, SET, CHANGE-KIND, GIVE, CLASS-ENTRY and CHANGE-CLASS write (R10, R12 to R16, R18, R30, R31, R35). -/

namespace Sys2Proof.Machine

variable {s : State}

/-! ### The lowest slot that passes a test -/

/-- A slot that passes a test, and below which none does, is the first found. -/
theorem find_allSlots {p : Fin 48 → Bool} {i : Fin 48} (passes : p i = true) (below : ∀ j, j < i → p j = false) : allSlots.find? p = some i := by
  refine List.find?_eq_some_iff_getElem.mpr ⟨passes, i.val, by simp [allSlots], by simp [allSlots], fun j earlier => ?_⟩
  have test := below ⟨j, earlier.trans i.isLt⟩ earlier
  simp only [allSlots, List.getElem_finRange, Bool.not_eq_true']
  exact test

theorem lowestVacant_eq_some {w : AllocWindow} {i : Fin 48} (inside : w.contains i = true) (vacant : s.recordAt i = none)
    (below : ∀ j, j < i → w.contains j = true → s.recordAt j ≠ none) : s.lowestVacant w = some i := by
  refine find_allSlots (by simp [inside, vacant]) fun j earlier => ?_
  cases within : w.contains j with
  | false => rfl
  | true =>
    obtain ⟨r, held⟩ := Option.ne_none_iff_exists'.mp (below j earlier within)
    simp [held]

theorem lowestVacant_eq_none {w : AllocWindow} (full : ∀ i, w.contains i = true → s.recordAt i ≠ none) : s.lowestVacant w = none := by
  refine List.find?_eq_none.mpr fun i _ => ?_
  cases within : w.contains i with
  | false => simp
  | true =>
    obtain ⟨r, held⟩ := Option.ne_none_iff_exists'.mp (full i within)
    simp [held]

/-! ### CREATE (R10) -/

/-- The kinds that CREATE makes records of, by their codes. -/
theorem kindOf_created {b : Byte} {k : Kind} (named : b = 1 ∧ k = .roving ∨ b = 2 ∧ k = .nest) : kindOf b = some k ∧ k ≠ .home := by
  rcases named with ⟨rfl, rfl⟩ | ⟨rfl, rfl⟩ <;> exact ⟨rfl, Kind.noConfusion⟩

theorem takeCreate_home (cls : Byte) : takeCreate 0 cls s = (s, noPayload .home) := rfl

theorem kindOf_eq_home {b : Byte} (home : kindOf b = some .home) : b = 0 := by
  unfold kindOf at home
  split_ifs at home with zero
  · exact zero
  all_goals cases home

/-- An undefined kind or class is refused RANGE. -/
theorem takeCreate_range {kind cls : Byte} (notHome : kind ≠ 0) (outside : 2 < kind.toNat ∨ 7 < cls.toNat) :
    takeCreate kind cls s = (s, noPayload .range) := by
  unfold takeCreate
  split
  · rename_i home
    exact absurd (kindOf_eq_home home) notHome
  · rename_i k c _ kindly classly
    rcases outside with above | above
    · rw [kindOf_eq_none above] at kindly; cases kindly
    · rw [classOfByte_eq_none above] at classly; cases classly
  · rfl

/-- A defined kind and class reach the station window. -/
theorem takeCreate_named {kind cls : Byte} {k : Kind} {c : Fin 8} (kindly : kindOf kind = some k) (notHome : k ≠ .home) (named : c.val = cls.toNat) :
    takeCreate kind cls s =
      match s.createIn s.table.stationWindow k c .station with
      | some (t, h) => answered t .ok (handleBytes h)
      | none => bare s .full := by
  rw [takeCreate, kindly, classOfByte_eq_some named]
  cases k
  · exact absurd rfl notHome
  all_goals rfl

theorem createIn_none {w : AllocWindow} (k : Kind) (c : Fin 8) (o : Owner) (full : ∀ i, w.contains i = true → s.recordAt i ≠ none) :
    s.createIn w k c o = none := by
  rw [State.createIn, lowestVacant_eq_none full]

theorem createIn_some {w : AllocWindow} (k : Kind) (c : Fin 8) (o : Owner) {i : Fin 48} (inside : w.contains i = true)
    (vacant : s.recordAt i = none) (below : ∀ j, j < i → w.contains j = true → s.recordAt j ≠ none) :
    s.createIn w k c o =
      some (s.setSlot i { generation := (s.slotAt i).generation, record := some (Record.created k c o) }, s.handleOf i) := by
  rw [State.createIn, lowestVacant_eq_some inside vacant below]

section
variable {kind cls : Byte} {k : Kind} {c : Fin 8}

/-- A CREATE that finds the station window full changes nothing. -/
theorem takeCreate_full (kindly : kindOf kind = some k) (notHome : k ≠ .home) (named : c.val = cls.toNat)
    (full : ∀ i, s.table.stationWindow.contains i = true → s.recordAt i ≠ none) : takeCreate kind cls s = (s, noPayload .full) := by
  rw [takeCreate_named kindly notHome named, createIn_none k c .station full]
  rfl

/-- A CREATE makes the record in the lowest VACANT slot of the station window. -/
theorem takeCreate_made (kindly : kindOf kind = some k) (notHome : k ≠ .home) (named : c.val = cls.toNat) {i : Fin 48}
    (inside : s.table.stationWindow.contains i = true) (vacant : s.recordAt i = none)
    (below : ∀ j, j < i → s.table.stationWindow.contains j = true → s.recordAt j ≠ none) :
    takeCreate kind cls s =
      (s.setSlot i { generation := (s.slotAt i).generation, record := some (Record.created k c .station) },
        okPayload [BitVec.ofNat 8 i.val, (s.slotAt i).generation]) := by
  rw [takeCreate_named kindly notHome named, createIn_some k c .station inside vacant below]
  rfl

end

/-! ### READ (R12) -/

theorem groupCode_of_groupOf {b : Byte} {g : Group} (spelt : groupOf b = some g) : groupCode g = b := by
  unfold groupOf at spelt
  split_ifs at spelt <;> cases spelt <;> subst_vars <;> rfl

/-- A READ under a live handle answers the group and clears what R12 says. -/
theorem takeRead_live {slot gen group : Byte} {g : Group} {h : Handle} {r : Record} (spelt : groupOf group = some g)
    (ok : s.lookup slot gen = .ok (h, r)) :
    takeRead slot gen group s = (s.withRecord h (r.afterRead g), okPayload (s.groupPayload g h r)) := by
  simp only [takeRead, spelt, ok, onRecord_ok, modifyRecord_live s _ (lookup_ok s ok).1]
  rfl

/-- A READ under a live handle, as a whole event. -/
theorem exec_read_live {slot gen group : Byte} {g : Group} {h : Handle} {r : Record} (up : s.resetnLow = false) (spelt : groupOf group = some g)
    (ok : s.lookup slot gen = .ok (h, r)) :
    exec (.read slot gen group) s =
      .next (answeredBy s (.read slot gen group) (okPayload (s.groupPayload g h r)) (s.withRecord h (r.afterRead g))) :=
  station_leaves (take := takeRead slot gen group) up (takeRead_live spelt ok) rfl

/-- The five flags of READ of the Fix group. -/
theorem fixFlags (a b c d e : Bool) :
    let flags := flagBit 0 a ||| flagBit 1 b ||| flagBit 2 c ||| flagBit 3 d ||| flagBit 4 e
    flags.getLsbD 0 = a ∧ flags.getLsbD 1 = b ∧ flags.getLsbD 2 = c ∧ flags.getLsbD 3 = d ∧ flags.getLsbD 4 = e ∧ flags.toNat < 32 := by
  revert a b c d e
  decide

/-- The two flags of READ of the Reference group. -/
theorem referenceFlags (a b : Bool) :
    let flags := flagBit 0 a ||| flagBit 1 b
    flags.getLsbD 0 = a ∧ flags.getLsbD 1 = b ∧ flags.toNat < 4 := by
  revert a b
  decide

end Sys2Proof.Machine

open Sys2Proof Sys2Proof.Machine

/-- Settles O13: kind and class decide HOME and RANGE; then the lowest VACANT slot of the station window, if there is one, takes the record. -/
theorem createMakesRecord : Obligations.CreateMakesRecord := by
  intro s kind cls up
  refine ⟨?_, fun notHome outside => station_answers (take := takeCreate kind cls) up (takeCreate_range notHome outside), fun k named c classly => ?_⟩
  · rintro rfl
    exact station_answers (take := takeCreate 0 cls) up (takeCreate_home cls)
  · obtain ⟨kindly, notHome⟩ := kindOf_created named
    exact ⟨fun full => station_answers (take := takeCreate kind cls) up (takeCreate_full kindly notHome classly full), fun i inside vacant below =>
      station_leaves (take := takeCreate kind cls) up (takeCreate_made kindly notHome classly inside vacant below) rfl⟩

/-- Settles O15: the group read decides what of the record is cleared and which values the payload holds. -/
theorem readAnswersGroup : Obligations.ReadAnswersGroup := by
  intro s slot gen group up
  refine ⟨fun above => read_range up (groupOf_eq_none above), fun g h r spelt ok => ?_⟩
  intro head bit zeros
  refine ⟨s.groupPayload g h r, ?_, ?_⟩
  · rw [exec_read_live up spelt ok]
    cases g <;> rfl
  · obtain rfl : groupCode g = group := groupCode_of_groupOf spelt
    refine ⟨?_, ?_, ?_, ?_, ?_, ?_, ?_, ?_⟩ <;> rintro rfl
    case refine_1 => rfl
    case refine_2 =>
      obtain ⟨present, near, mark, pending, overrun, small⟩ :=
        fixFlags r.fix.isSome (r.fix.bind (·.near)).isSome (r.fix.bind (·.mark)).isSome r.fixPending r.fixOverrun
      refine ⟨_, present, near, mark, pending, overrun, small, fun f fixed => ?_, fun absent => ?_⟩
      · simp [State.groupPayload, fixPayload, fixed, head, handleBytes, directionBytes, int4, nat4, nat2, nat1]
      · simp [State.groupPayload, fixPayload, absent, head, zeros, handleBytes, nat1]
    case refine_3 =>
      refine ⟨fun m moving => ?_, fun absent => ?_⟩
      · simp [State.groupPayload, motionPayload, moving, head, handleBytes, flagBit, int4]
      · simp [State.groupPayload, motionPayload, absent, head, zeros, handleBytes, flagBit]
    case refine_4 =>
      obtain ⟨present, deviates, small⟩ := referenceFlags r.reference.isSome r.lastDeviation.isSome
      refine ⟨_, _, _, present, deviates, small, rfl, fun x held => ?_, fun absent => ?_, fun x held => ?_, fun absent => ?_⟩
      · rw [held]; rfl
      · rw [absent]; rfl
      · rw [held]; rfl
      · rw [absent]; rfl
    case refine_5 => simp [State.groupPayload, parametersPayload, head, handleBytes, nat2, nat1]
    case refine_6 =>
      refine ⟨fun e listed => ?_, fun absent => ?_⟩
      · simp [State.groupPayload, revisitPayload, State.shownDue, listed, head, handleBytes, flagBit, nat2, nat1]
      · simp [State.groupPayload, revisitPayload, State.shownDue, absent, head, zeros, handleBytes, flagBit, nat2, nat1, bytes6, byteOf]
    case refine_7 => rfl
    case refine_8 => rfl

end

section
/-! What SET, CHANGE-KIND, GIVE, CLASS-ENTRY and CHANGE-CLASS write (R13 to R16, R18, R30, R31). -/

namespace Sys2Proof.Machine

variable {s : State} {slot gen : Byte} {h : Handle} {r : Record}

/-- The window test of a record written does not see the transaction. -/
theorem windowTestFails_atRise (i : Instr) (h : Handle) (r : Record) (j : Fin 48) :
    windowTestFails (s.atRise i) ((s.atRise i).withRecord h r) j = windowTestFails s (s.withRecord h r) j := rfl

theorem isActive_eq_false (idle : ¬∃ st, r.state = .active st) : r.isActive = false := by
  rwa [← Bool.not_eq_true, isActive_iff]

/-- Of a change to a live record that answers: what it leaves and its answer. -/
theorem onRecord_judged {found : Except Answer (Handle × Record)} {change : Handle → Record → State × Answer} {t : State} {a : Answer}
    (ok : found = .ok (h, r)) (judged : change h r = (t, a)) :
    (s.onRecord found fun h r => let t := change h r; bare t.1 t.2) = (t, noPayload a) := by
  rw [ok, onRecord_ok, judged, bare_eq]

/-! ### SET of the Parameters group (R13) -/

section
variable {p : Parameters}

theorem setParametersOf_busy (moves : p.window ≠ r.params.window) (active : ∃ st, r.state = .active st) :
    s.setParametersOf h r p = (s, .busy) := by
  rw [State.setParametersOf, if_pos ⟨moves, (isActive_iff r).mpr active⟩]

theorem setParametersOf_range (free : ¬(p.window ≠ r.params.window ∧ ∃ st, r.state = .active st)) (outside : ¬p.Fits) :
    s.setParametersOf h r p = (s, .range) := by
  have unfit : p.inRange = false := by rwa [← Bool.not_eq_true, parametersInRange_iff]
  rw [State.setParametersOf, if_neg (by rwa [isActive_iff]), if_pos unfit]

/-- Past BUSY and RANGE, a change of window is tested, and a change of a value written. -/
theorem setParametersOf_fits (live : s.live h = some r) (free : ¬(p.window ≠ r.params.window ∧ ∃ st, r.state = .active st)) (fits : p.Fits) :
    s.setParametersOf h r p =
      if p.window ≠ r.params.window ∧ r.position.isSome = true ∧ windowTestFails s (s.withRecord h { r with params := p }) h.slot = true then
        (s, .overlap)
      else if p = r.params then (s, .already)
      else (s.withRecord h { r with params := p }, .ok) := by
  have fit : ¬p.inRange = false := by rw [Bool.not_eq_false, parametersInRange_iff]; exact fits
  rw [State.setParametersOf, if_neg (by rwa [isActive_iff]), if_neg fit, modifyRecord_live s _ live]

theorem setParametersOf_same (live : s.live h = some r) (fits : p.Fits) (same : p = r.params) : s.setParametersOf h r p = (s, .already) := by
  have still : ¬p.window ≠ r.params.window := fun moves => moves (congrArg Parameters.window same)
  rw [setParametersOf_fits live (fun both => still both.1) fits, if_neg (fun all => still all.1), if_pos same]

theorem setParametersOf_overlap (live : s.live h = some r) (free : ¬(p.window ≠ r.params.window ∧ ∃ st, r.state = .active st)) (fits : p.Fits)
    (moves : p.window ≠ r.params.window) (position : r.position.isSome = true)
    (overlaps : windowTestFails s (s.withRecord h { r with params := p }) h.slot = true) : s.setParametersOf h r p = (s, .overlap) := by
  rw [setParametersOf_fits live free fits, if_pos ⟨moves, position, overlaps⟩]

theorem setParametersOf_ok (live : s.live h = some r) (free : ¬(p.window ≠ r.params.window ∧ ∃ st, r.state = .active st)) (fits : p.Fits)
    (other : p ≠ r.params)
    (clear : p.window ≠ r.params.window → r.position.isSome = true → windowTestFails s (s.withRecord h { r with params := p }) h.slot = false) :
    s.setParametersOf h r p = (s.withRecord h { r with params := p }, .ok) := by
  rw [setParametersOf_fits live free fits, if_neg, if_neg other]
  rintro ⟨moves, position, overlaps⟩
  exact Bool.noConfusion (overlaps.symm.trans (clear moves position))

/-- A SET of the Parameters group of a record the station owns, as a whole event. -/
theorem exec_setParameters {w c f l : BitVec 16} {n : Byte} {a : Answer} {t t' : State} (up : s.resetnLow = false)
    (ok : s.lookupOwned slot gen = .ok (h, r))
    (judged : (s.atRise (.setParameters slot gen 0 w c f n l)).setParametersOf h r (parametersOf w c f n l) = (t', a))
    (left : t'.respond (noPayload a) = answeredBy s (.setParameters slot gen 0 w c f n l) (noPayload a) t) :
    exec (.setParameters slot gen 0 w c f n l) s = .next (answeredBy s (.setParameters slot gen 0 w c f n l) (noPayload a) t) :=
  station_leaves (take := takeSetParameters slot gen 0 w c f n l) up
    (by rw [takeSetParameters, withSelector_same (selector := 0) (wanted := 0#8) rfl]
        exact onRecord_judged (change := fun h r => (s.atRise _).setParametersOf h r (parametersOf w c f n l)) (by rwa [lookupOwned_atRise]) judged) left

end

/-! ### SET of hold and of auto-resume (R15) -/

/-- The byte of a flag, on or off (log 8). -/
theorem onOffOf_bit (v : Bool) : onOffOf (if v then 1 else 0) = some v := onOffOf_flagByte v

theorem exec_setHold_range {v : Byte} (up : s.resetnLow = false) (ok : s.lookupOwned slot gen = .ok (h, r)) (above : 1 < v.toNat) :
    exec (.setHold slot gen 2 v) s = .next (answeredBy s (.setHold slot gen 2 v) (noPayload .range) s) :=
  station_answers (take := takeSetHold slot gen 2 v) up
    (by rw [takeSetHold, withSelector_same (selector := 2) (wanted := 2#8) rfl, lookupOwned_atRise, ok, onRecord_ok, onOffOf_eq_none above]; rfl)

theorem exec_setAutoResume_range {v : Byte} (up : s.resetnLow = false) (ok : s.lookupOwned slot gen = .ok (h, r)) (above : 1 < v.toNat) :
    exec (.setAutoResume slot gen v) s = .next (answeredBy s (.setAutoResume slot gen v) (noPayload .range) s) :=
  station_answers (take := takeSetAutoResume slot gen v) up
    (by rw [takeSetAutoResume, lookupOwned_atRise, ok, onRecord_ok, onOffOf_eq_none above]; rfl)

theorem setHoldOf_live (live : s.live h = some r) (v : Bool) :
    s.setHoldOf h r v = if r.hold = v then (s, .already) else (s.withRecord h { r with hold := v }, .ok) := by
  rw [State.setHoldOf, modifyRecord_live s _ live]

theorem takeSetHold_defined {b : Byte} {v : Bool} (spelt : onOffOf b = some v) (ok : s.lookupOwned slot gen = .ok (h, r)) :
    takeSetHold slot gen 2 b s =
      if r.hold = v then (s, noPayload .already) else (s.withRecord h { r with hold := v }, noPayload .ok) := by
  rw [takeSetHold, withSelector_same (selector := 2) (wanted := 2#8) rfl, ok, onRecord_ok, spelt]
  dsimp only
  rw [setHoldOf_live (lookupOwned_ok s ok).1]
  split <;> rfl

theorem takeSetAutoResume_defined {b : Byte} {v : Bool} (spelt : onOffOf b = some v) (ok : s.lookupOwned slot gen = .ok (h, r)) :
    takeSetAutoResume slot gen b s =
      if r.autoResume = v then (s, noPayload .already) else (s.withRecord h { r with autoResume := v }, noPayload .ok) := by
  rw [takeSetAutoResume, ok, onRecord_ok, spelt]
  dsimp only
  rw [modifyRecord_live s _ (lookupOwned_ok s ok).1, bare_eq, bare_eq]

/-- A command that answers ALREADY, or writes a record. -/
theorem station_written {i : Instr} {take : State → State × Response} {p : Prop} [Decidable p] {r' : Record} (up : s.resetnLow = false)
    (taken : take (s.atRise i) = if p then (s.atRise i, noPayload .already) else ((s.atRise i).withRecord h r', noPayload .ok)) :
    s.station i take =
      .next (if p then answeredBy s i (noPayload .already) s else answeredBy s i (noPayload .ok) (s.withRecord h r')) := by
  split at taken
  · rename_i same
    rw [station_answers up taken, if_pos same]
  · rename_i changed
    rw [station_leaves up taken (respond_withRecord_atRise s _ _ _ _), if_neg changed]

/-! ### SET of the Reference group (R14) -/

/-- The values of the full form in their ranges. -/
theorem referenceInRange_iff (ref : Reference) (angle range : Nat) :
    referenceInRange ref angle range = true ↔ ref.direction.Fits ∧ ref.range ≤ 80000000 ∧ angle ≤ 50000 ∧ range ≤ 5000000 := by
  simp [referenceInRange, inLimits_iff, and_assoc]

section
variable {ref : Reference} {angle range : Nat}

theorem setReferenceOf_kind (roving : r.kind = .roving) : s.setReferenceOf h r ref angle range = (s, .kind) := by
  rw [State.setReferenceOf, if_pos roving]

theorem setReferenceOf_busy (fixed : r.kind ≠ .roving) (active : ∃ st, r.state = .active st) :
    s.setReferenceOf h r ref angle range = (s, .busy) := by
  rw [State.setReferenceOf, if_neg fixed, if_pos ((isActive_iff r).mpr active)]

theorem setReferenceOf_range (fixed : r.kind ≠ .roving) (idle : ¬∃ st, r.state = .active st)
    (outside : ¬(ref.direction.Fits ∧ ref.range ≤ 80000000 ∧ angle ≤ 50000 ∧ range ≤ 5000000)) :
    s.setReferenceOf h r ref angle range = (s, .range) := by
  have unfit : referenceInRange ref angle range = false := by rwa [← Bool.not_eq_true, referenceInRange_iff]
  rw [State.setReferenceOf, if_neg fixed, if_neg (by simp [isActive_eq_false idle]), if_pos unfit]

theorem setReferenceOf_fits (live : s.live h = some r) (fixed : r.kind ≠ .roving) (idle : ¬∃ st, r.state = .active st)
    (fits : ref.direction.Fits ∧ ref.range ≤ 80000000 ∧ angle ≤ 50000 ∧ range ≤ 5000000) :
    s.setReferenceOf h r ref angle range =
      if windowTestFails s (s.withRecord h { r.withReference (some ref) with angleTolerance := angle, rangeTolerance := range }) h.slot then
        (s, .overlap)
      else (s.withRecord h { r.withReference (some ref) with angleTolerance := angle, rangeTolerance := range }, .ok) := by
  have fit : ¬referenceInRange ref angle range = false := by rw [Bool.not_eq_false, referenceInRange_iff]; exact fits
  rw [State.setReferenceOf, if_neg fixed, if_neg (by simp [isActive_eq_false idle]), if_neg fit, modifyRecord_live s _ live]

theorem removeReferenceOf_kind (roving : r.kind = .roving) : s.removeReferenceOf h r = (s, .kind) := by
  rw [State.removeReferenceOf, if_pos roving]

theorem removeReferenceOf_busy (fixed : r.kind ≠ .roving) (active : ∃ st, r.state = .active st) : s.removeReferenceOf h r = (s, .busy) := by
  rw [State.removeReferenceOf, if_neg fixed, if_pos ((isActive_iff r).mpr active)]

theorem removeReferenceOf_idle (live : s.live h = some r) (fixed : r.kind ≠ .roving) (idle : ¬∃ st, r.state = .active st) :
    s.removeReferenceOf h r =
      if windowTestFails s (s.withRecord h (r.withReference none)) h.slot then (s, .overlap)
      else (s.withRecord h (r.withReference none), .ok) := by
  rw [State.removeReferenceOf, if_neg fixed, if_neg (by simp [isActive_eq_false idle]), modifyRecord_live s _ live]

end

section
variable {az el range rt : BitVec 32} {at_ : BitVec 16} {a : Answer} {t' : State} (up : s.resetnLow = false)
  (ok : s.lookupOwned slot gen = .ok (h, r))
include ok

theorem takeSetReference_judged (judged : s.setReferenceOf h r (referenceOf az el range) at_.toNat rt.toNat = (t', a)) :
    takeSetReference slot gen 1 az el range at_ rt s = (t', noPayload a) := by
  rw [takeSetReference, withSelector_same (selector := 1) (wanted := 1#8) rfl]
  exact onRecord_judged (change := fun h r => s.setReferenceOf h r (referenceOf az el range) at_.toNat rt.toNat) ok judged

theorem takeSetReferenceRemoval_judged (judged : s.removeReferenceOf h r = (t', a)) :
    takeSetReferenceRemoval slot gen 1 s = (t', noPayload a) := by
  rw [takeSetReferenceRemoval, withSelector_same (selector := 1) (wanted := 1#8) rfl]
  exact onRecord_judged (change := fun h r => s.removeReferenceOf h r) ok judged

include up

/-- A refused full form, as a whole event. -/
theorem exec_setReference_refused
    (judged : (s.atRise (.setReference slot gen 1 az el range at_ rt)).setReferenceOf h r (referenceOf az el range) at_.toNat rt.toNat
      = (s.atRise (.setReference slot gen 1 az el range at_ rt), a)) :
    exec (.setReference slot gen 1 az el range at_ rt) s =
      .next (answeredBy s (.setReference slot gen 1 az el range at_ rt) (noPayload a) s) :=
  station_answers (take := takeSetReference slot gen 1 az el range at_ rt) up (takeSetReference_judged (by rwa [lookupOwned_atRise]) judged)

/-- A refused removal, as a whole event. -/
theorem exec_setReferenceRemoval_refused
    (judged : (s.atRise (.setReferenceRemoval slot gen 1)).removeReferenceOf h r = (s.atRise (.setReferenceRemoval slot gen 1), a)) :
    exec (.setReferenceRemoval slot gen 1) s = .next (answeredBy s (.setReferenceRemoval slot gen 1) (noPayload a) s) :=
  station_answers (take := takeSetReferenceRemoval slot gen 1) up (takeSetReferenceRemoval_judged (by rwa [lookupOwned_atRise]) judged)

end

/-- A command whose record is written unless its window overlaps. -/
theorem station_tested {i : Instr} {take : State → State × Response} {p : Prop} [Decidable p] {r' : Record} (up : s.resetnLow = false)
    (refused : p → take (s.atRise i) = (s.atRise i, noPayload .overlap))
    (written : ¬p → take (s.atRise i) = ((s.atRise i).withRecord h r', noPayload .ok)) :
    s.station i take =
      .next (if p then answeredBy s i (noPayload .overlap) s else answeredBy s i (noPayload .ok) (s.withRecord h r')) := by
  split
  · rename_i overlaps
    exact station_answers up (refused overlaps)
  · rename_i clear
    exact station_leaves up (written clear) (respond_withRecord_atRise s _ _ _ _)

/-! ### CHANGE-KIND (R16) -/

section
variable {expected wanted : Kind}

theorem changeKindOf_home (home : h.slot = 0 ∨ wanted = .home) : s.changeKindOf h r expected wanted = (s, .home) := by
  rw [State.changeKindOf, if_pos home]

theorem changeKindOf_kind (slot : h.slot ≠ 0) (notHome : wanted ≠ .home) (other : r.kind ≠ expected) :
    s.changeKindOf h r expected wanted = (s, .kind) := by
  rw [State.changeKindOf, if_neg (not_or.mpr ⟨slot, notHome⟩), if_pos other]

theorem changeKindOf_busy (slot : h.slot ≠ 0) (notHome : wanted ≠ .home) (same : r.kind = expected) (busy : r.state ≠ .dormant) :
    s.changeKindOf h r expected wanted = (s, .busy) := by
  rw [State.changeKindOf, if_neg (not_or.mpr ⟨slot, notHome⟩), if_neg (not_not.mpr same), if_pos busy]

/-- Past the checks of the record, the kind wanted decides. -/
theorem changeKindOf_dormant (live : s.live h = some r) (slot : h.slot ≠ 0) (notHome : wanted ≠ .home) (same : r.kind = expected)
    (dormant : r.state = .dormant) :
    s.changeKindOf h r expected wanted =
      if wanted = r.kind then (s, .already)
      else if wanted = .roving then ((s.withRecord h (r.changedTo wanted)).removeEntry h.slot, .ok)
      else if r.fix.isSome = true ∧ windowTestFails s (s.withRecord h (r.changedTo wanted)) h.slot = true then (s, .overlap)
      else (s.withRecord h (r.changedTo wanted), .ok) := by
  rw [State.changeKindOf, if_neg (not_or.mpr ⟨slot, notHome⟩), if_neg (not_not.mpr same), if_neg (not_not.mpr dormant),
    modifyRecord_live s _ live]

theorem takeChangeKind_judged {x y : Byte} {a : Answer} {t' : State} (e : kindOf x = some expected) (w : kindOf y = some wanted)
    (ok : s.lookupOwned slot gen = .ok (h, r)) (judged : s.changeKindOf h r expected wanted = (t', a)) :
    takeChangeKind slot gen x y s = (t', noPayload a) := by
  rw [takeChangeKind, e, w]
  exact onRecord_judged (change := fun h r => s.changeKindOf h r expected wanted) ok judged

end

/-! ### GIVE (R18) -/

theorem contains_iff (w : AllocWindow) (i : Fin 48) : w.contains i = true ↔ w.base ≤ i.val ∧ i.val < w.base + w.length := by
  simp [AllocWindow.contains]

/-- GIVE of a live record: HOME, RANGE, ALREADY, or the owner written. -/
theorem takeGive_live (ok : s.lookup slot gen = .ok (h, r)) :
    takeGive slot gen s =
      if h.slot = 0 then (s, noPayload .home)
      else if s.table.pendantWindow.contains h.slot = false then (s, noPayload .range)
      else if r.owner = .pendant then (s, noPayload .already)
      else (s.withRecord h { r with owner := .pendant }, noPayload .ok) := by
  rw [takeGive, ok, onRecord_ok, modifyRecord_live s _ (lookup_ok s ok).1]
  simp only [bare_eq]

/-- GIVE of a record outside the pendant window. -/
theorem takeGive_range (ok : s.lookup slot gen = .ok (h, r)) (notHome : h.slot ≠ 0) (outside : ¬s.table.pendantWindow.contains h.slot = true) :
    takeGive slot gen s = (s, noPayload .range) := by
  rw [takeGive_live ok, if_neg notHome, if_pos (Bool.not_eq_true _ ▸ outside)]

/-- GIVE of a record inside the pendant window. -/
theorem takeGive_inside (ok : s.lookup slot gen = .ok (h, r)) (notHome : h.slot ≠ 0) (inside : s.table.pendantWindow.contains h.slot = true) :
    takeGive slot gen s =
      if r.owner = .pendant then (s, noPayload .already) else (s.withRecord h { r with owner := .pendant }, noPayload .ok) := by
  rw [takeGive_live ok, if_neg notHome, if_neg (by simp [inside])]

/-! ### CLASS-ENTRY, write form (R30) -/

section
variable {c : Fin 8} {e : ClassEntry}

theorem classBusy_iff : s.classBusy c = true ↔ ∃ j r st, s.recordAt j = some r ∧ r.cls = c ∧ r.state = .active st := by
  have at_slot (j : Fin 48) : (match s.recordAt j with | some r => decide (r.cls = c) && r.isActive | none => false) = true
      ↔ ∃ r st, s.recordAt j = some r ∧ r.cls = c ∧ r.state = .active st := by
    cases held : s.recordAt j with
    | none => simp
    | some r => simp [isActive_iff]
  simp only [State.classBusy, allSlots, List.any_eq_true, List.mem_finRange, true_and]
  exact exists_congr at_slot

theorem usesClassWindow_iff (j : Fin 48) : s.usesClassWindow c j = true ↔ ∃ r, s.recordAt j = some r ∧ r.cls = c ∧ r.params.window = 0 := by
  unfold State.usesClassWindow
  cases s.recordAt j <;> simp

theorem classTestFails_iff (t : State) :
    classTestFails s t c = true ↔ ∃ j k r, j ≠ k ∧ s.recordAt j = some r ∧ r.cls = c ∧ r.params.window = 0 ∧ pairFails s t j k = true := by
  simp only [classTestFails, allSlots, List.any_eq_true, List.mem_finRange, true_and, Bool.and_eq_true, usesClassWindow_iff, windowTestFails_iff]
  exact ⟨fun ⟨j, ⟨r, held, cls, window⟩, k, other, fails⟩ => ⟨j, k, r, other.symm, held, cls, window, fails⟩,
    fun ⟨j, k, r, other, held, cls, window, fails⟩ => ⟨j, ⟨r, held, cls, window⟩, k, other.symm, fails⟩⟩

/-- CLASS-ENTRY of a class, its checks in their order. -/
theorem writeClass_free (free : ¬s.classBusy c = true) (fits : e.Fits) :
    s.writeClass c e =
      if e.captureRadius ≠ s.classes[c.val].captureRadius ∧ classTestFails s (s.setClass c e) c = true then (s, .overlap)
      else if e = s.classes[c.val] then (s, .already)
      else (s.setClass c e, .ok) := by
  have fit : ¬e.inRange = false := by rw [Bool.not_eq_false, classEntryInRange_iff]; exact fits
  rw [State.writeClass, if_neg free, if_neg fit]

theorem writeClass_busy (busy : s.classBusy c = true) : s.writeClass c e = (s, .busy) := by
  rw [State.writeClass, if_pos busy]

theorem writeClass_range (free : ¬s.classBusy c = true) (outside : ¬e.Fits) : s.writeClass c e = (s, .range) := by
  have unfit : e.inRange = false := by rwa [← Bool.not_eq_true, classEntryInRange_iff]
  rw [State.writeClass, if_neg free, if_pos unfit]

theorem takeClassEntryWrite_judged {cls : Byte} {a b d e' f g : BitVec 16} {x : Answer} {t' : State} (named : c.val = cls.toNat)
    (judged : s.writeClass c (classEntryOf a b d e' f g) = (t', x)) : takeClassEntryWrite cls a b d e' f g s = (t', noPayload x) := by
  simp only [takeClassEntryWrite, classOfByte_eq_some named, judged, bare_eq]

theorem takeClassEntryWrite_above {cls : Byte} (a b d e' f g : BitVec 16) (above : 7 < cls.toNat) :
    takeClassEntryWrite cls a b d e' f g s = (s, noPayload .range) := by
  rw [takeClassEntryWrite, classOfByte_eq_none above, bare_eq]

end

/-! ### CHANGE-CLASS (R31) -/

theorem takeChangeClass_busy (cls : Byte) (ok : s.lookupOwned slot gen = .ok (h, r)) (active : ∃ st, r.state = .active st) :
    takeChangeClass slot gen cls s = (s, noPayload .busy) := by
  rw [takeChangeClass, ok, onRecord_ok, if_pos ((isActive_iff r).mpr active), bare_eq]

theorem takeChangeClass_range {cls : Byte} (ok : s.lookupOwned slot gen = .ok (h, r)) (idle : ¬∃ st, r.state = .active st)
    (above : 7 < cls.toNat) : takeChangeClass slot gen cls s = (s, noPayload .range) := by
  rw [takeChangeClass, ok, onRecord_ok, if_neg (by simp [isActive_eq_false idle]), classOfByte_eq_none above]
  rfl

theorem takeChangeClass_named {cls : Byte} {c : Fin 8} (ok : s.lookupOwned slot gen = .ok (h, r)) (idle : ¬∃ st, r.state = .active st)
    (named : c.val = cls.toNat) :
    takeChangeClass slot gen cls s =
      if r.position.isSome = true ∧ r.params.window = 0 ∧ windowTestFails s (s.withRecord h { r with cls := c }) h.slot = true then
        (s, noPayload .overlap)
      else if r.cls = c then (s, noPayload .already)
      else (s.withRecord h { r with cls := c }, noPayload .ok) := by
  rw [takeChangeClass, ok, onRecord_ok, if_neg (by simp [isActive_eq_false idle]), classOfByte_eq_some named]
  dsimp only
  rw [State.changeClassOf, modifyRecord_live s _ (lookupOwned_ok s ok).1, bare_eq]
  split_ifs <;> rfl

end Sys2Proof.Machine

open Sys2Proof Sys2Proof.Machine

/-- Settles O16: the checks of SET in their order; past them the values stand in the record and nothing else has changed. -/
theorem setWritesValues : Obligations.SetWritesValues := by
  intro s slot gen h r up ok
  refine ⟨fun w c f l n => ?_, fun v above => ⟨exec_setHold_range up ok above, exec_setAutoResume_range up ok above⟩, fun v => ?_⟩
  · intro i p t moves
    have live : (s.atRise i).live h = some r := (lookupOwned_ok s ok).1
    exact ⟨fun moves active => exec_setParameters up ok (setParametersOf_busy moves active) (respond_atRise s _ _), fun free =>
      ⟨fun outside => exec_setParameters up ok (setParametersOf_range free outside) (respond_atRise s _ _),
        fun fits same => exec_setParameters up ok (setParametersOf_same live fits same) (respond_atRise s _ _),
        fun fits moves position overlaps =>
          exec_setParameters up ok (setParametersOf_overlap live free fits moves position overlaps) (respond_atRise s _ _),
        fun fits other clear => exec_setParameters up ok (setParametersOf_ok live free fits other clear) (respond_withRecord_atRise s _ _ _ _)⟩⟩
  · intro b
    exact ⟨station_written (take := takeSetHold slot gen 2 b) up (takeSetHold_defined (onOffOf_bit v) (by rwa [lookupOwned_atRise])),
      station_written (take := takeSetAutoResume slot gen b) up (takeSetAutoResume_defined (onOffOf_bit v) (by rwa [lookupOwned_atRise]))⟩

/-- Settles O17: the window test in the rules' words, then KIND, BUSY, RANGE and OVERLAP in that order for both forms. -/
theorem setReferenceWrites : Obligations.SetReferenceWrites := by
  refine ⟨fun before after i j => ⟨pairFails_iff before after i j, windowTestFails_iff before after i⟩, position_eq_some,
    fun a b => ⟨normAzimuth_shortWay _, rfl⟩, fun x => ⟨normAzimuth_shortWay x, rfl⟩, ?_⟩
  intro s slot gen h r az el range rt at_ up ok full gone ref inRange t u
  have ranges : inRange ↔ ref.direction.Fits ∧ ref.range ≤ 80000000 ∧ at_.toNat ≤ 50000 ∧ rt.toNat ≤ 5000000 := by
    simp only [inRange, ref, Direction.Fits, and_assoc]
  have live (i : Instr) : (s.atRise i).live h = some r := (lookupOwned_ok s ok).1
  refine ⟨fun roving => ⟨exec_setReference_refused up ok (setReferenceOf_kind roving),
      exec_setReferenceRemoval_refused up ok (removeReferenceOf_kind roving)⟩,
    fun fixed active => ⟨exec_setReference_refused up ok (setReferenceOf_busy fixed active),
      exec_setReferenceRemoval_refused up ok (removeReferenceOf_busy fixed active)⟩,
    fun fixed idle => ⟨fun outside => exec_setReference_refused up ok (setReferenceOf_range fixed idle (mt ranges.mpr outside)),
      fun fits => ?_, ?_⟩⟩
  · have judged := setReferenceOf_fits (s := s.atRise full) (ref := ref) (live full) fixed idle (ranges.mp fits)
    exact station_tested (take := takeSetReference slot gen 1 az el range at_ rt) up
      (fun overlaps => takeSetReference_judged ok (judged.trans (if_pos overlaps)))
      (fun clear => takeSetReference_judged ok (judged.trans (if_neg clear)))
  · have judged := removeReferenceOf_idle (s := s.atRise gone) (live gone) fixed idle
    exact station_tested (take := takeSetReferenceRemoval slot gen 1) up
      (fun overlaps => takeSetReferenceRemoval_judged ok (judged.trans (if_pos overlaps)))
      (fun clear => takeSetReferenceRemoval_judged ok (judged.trans (if_neg clear)))

/-- Settles O18: the checks on slot, kinds and state in their order, and of the two changes the record each leaves. -/
theorem changeKindChanges : Obligations.ChangeKindChanges := by
  intro s slot gen x y h r expected wanted up ok e w i roving nest
  have live : (s.atRise i).live h = some r := (lookupOwned_ok s ok).1
  have refused {a : Answer} (judged : (s.atRise i).changeKindOf h r expected wanted = (s.atRise i, a)) :
      exec i s = .next (answeredBy s i (noPayload a) s) :=
    station_answers (take := takeChangeKind slot gen x y) up (takeChangeKind_judged e w ok judged)
  refine ⟨fun home => refused (changeKindOf_home home), fun slot' notHome => ⟨fun other => refused (changeKindOf_kind slot' notHome other),
    fun same busy => refused (changeKindOf_busy slot' notHome same busy), fun same dormant => ?_⟩⟩
  have judged := changeKindOf_dormant live slot' notHome same dormant
  refine ⟨fun already => refused (judged.trans (if_pos already)), ?_, ?_⟩
  · rintro rfl other
    rw [if_neg other.symm, if_pos rfl] at judged
    exact station_leaves (take := takeChangeKind slot gen x y) up (takeChangeKind_judged e w ok judged) rfl
  · rintro rfl other
    rw [if_neg other.symm, if_neg Kind.noConfusion] at judged
    exact station_tested (take := takeChangeKind slot gen x y) up
      (fun overlaps => takeChangeKind_judged e w ok (judged.trans (if_pos overlaps)))
      (fun clear => takeChangeKind_judged e w ok (judged.trans (if_neg clear)))

/-- Settles O20: GIVE writes the owner of a record inside the pendant window, on which the station's OWNER check of R6 then turns. -/
theorem giveMakesPendantOwned : Obligations.GiveMakesPendantOwned := by
  intro s slot gen h r up ok inside
  have ok' : (s.atRise (.give slot gen)).lookup slot gen = .ok (h, r) := by rwa [lookup_atRise]
  have within : s.table.pendantWindow.contains h.slot = true ↔ inside := contains_iff _ _
  refine ⟨fun home => ?_, fun notHome outside => ?_, fun notHome inside' owned => ?_, fun notHome inside' owned => ⟨_, ?_, rfl, ?_⟩⟩
  · exact station_answers (take := takeGive slot gen) up ((takeGive_live ok').trans (if_pos home))
  · exact station_answers (take := takeGive slot gen) up (takeGive_range ok' notHome (mt within.mp outside))
  · exact station_answers (take := takeGive slot gen) up ((takeGive_inside ok' notHome (within.mpr inside')).trans (if_pos owned))
  · have foreign : r.owner ≠ .pendant := by rw [owned]; exact Owner.noConfusion
    exact station_leaves (take := takeGive slot gen) up ((takeGive_inside ok' notHome (within.mpr inside')).trans (if_neg foreign)) rfl
  · obtain ⟨-, named, generation⟩ := lookup_ok s ok
    subst generation
    have held : (answeredBy s (.give slot h.generation) (noPayload .ok) (s.withRecord h { r with owner := .pendant })).lookup slot h.generation
        = .ok ({ slot := h.slot, generation := h.generation }, { r with owner := .pendant }) :=
      lookup_named named (by simp) (by simp [State.slotAt, answeredBy, State.withRecord, State.setSlot])
    exact lookupOwned_pendant held rfl

/-- Settles O23: BUSY, RANGE and OVERLAP in that order, the overlap being a window test over the pairs that take their window from the class. -/
theorem classEntryWriteReplaces : Obligations.ClassEntryWriteReplaces := by
  intro s cls a b d e f g up i
  refine ⟨fun above => station_answers (take := takeClassEntryWrite cls a b d e f g) up (takeClassEntryWrite_above a b d e f g above),
    fun c named => ?_⟩
  intro entry t busy overlaps
  have refused {x : Answer} (judged : (s.atRise i).writeClass c entry = (s.atRise i, x)) : exec i s = .next (answeredBy s i (noPayload x) s) :=
    station_answers (take := takeClassEntryWrite cls a b d e f g) up (takeClassEntryWrite_judged named judged)
  have tested : overlaps ↔ entry.captureRadius ≠ s.classes[c.val].captureRadius ∧ classTestFails s (s.setClass c entry) c = true :=
    and_congr_right fun _ => (classTestFails_iff t).symm
  refine ⟨fun h => refused (writeClass_busy (classBusy_iff.mpr h)), fun free outside => refused (writeClass_range (mt classBusy_iff.mp free) outside),
    fun free fits h => ?_, fun free fits clear => ?_⟩
  · exact refused ((writeClass_free (s := s.atRise i) (mt classBusy_iff.mp free) fits).trans (if_pos (tested.mp h)))
  · have judged := (writeClass_free (s := s.atRise i) (mt classBusy_iff.mp free) fits).trans (if_neg (mt tested.mpr clear))
    split
    · rename_i same
      exact refused (judged.trans (if_pos same))
    · rename_i changed
      exact station_leaves (take := takeClassEntryWrite cls a b d e f g) up (takeClassEntryWrite_judged named (judged.trans (if_neg changed))) rfl

/-- Settles O24: BUSY, RANGE, OVERLAP and ALREADY in that order, or the class of the record written. -/
theorem changeClassWrites : Obligations.ChangeClassWrites := by
  intro s slot gen cls h r up ok i
  refine ⟨fun active => station_answers (take := takeChangeClass slot gen cls) up (takeChangeClass_busy cls ok active),
    fun idle above => station_answers (take := takeChangeClass slot gen cls) up (takeChangeClass_range ok idle above), fun idle c named => ?_⟩
  intro t
  have taken := takeChangeClass_named (s := s.atRise i) ok idle named
  split
  · rename_i overlaps
    exact station_answers (take := takeChangeClass slot gen cls) up (taken.trans (if_pos overlaps))
  · rename_i clear
    rw [if_neg (by exact clear)] at taken
    exact station_written (take := takeChangeClass slot gen cls) up taken

end

section
/-! The framing of the two client links read back: the station's frames and the commands they are, and the pendant's frames (R176 to R179, R183, R184, R190,
R192, R203). -/

namespace Sys2Proof

/-! ### The bytes of a value (R183) -/

theorem byteOf_append_low {w : Nat} (n : Nat) (hi : Byte) (lo : BitVec w) (inside : 8 * n + 8 ≤ w) : byteOf n (hi ++ lo) = byteOf n lo := by
  ext i small
  have : 8 * n + i < w := by omega
  simp [byteOf, BitVec.getLsbD_append, this]

theorem byteOf_append_high {w : Nat} (n : Nat) (hi : Byte) (lo : BitVec w) (above : 8 * n = w) : byteOf n (hi ++ lo) = hi := by
  ext i small
  have : ¬8 * n + i < w := by omega
  simp [byteOf, BitVec.getLsbD_append, this, show 8 * n + i - w = i by omega, BitVec.getLsbD_eq_getElem small]

theorem byteOf_self (v : Byte) : byteOf 0 v = v := by
  ext i small
  simp [byteOf]
/-- The first n bytes of a value, the least significant first. -/
def bytesOf {w : Nat} (n : Nat) (v : BitVec w) : List Byte := (List.range n).map fun k => byteOf k v

theorem bytesOf_append {w n : Nat} (hi : Byte) (lo : BitVec w) (whole : w = 8 * n) : bytesOf (n + 1) (hi ++ lo) = bytesOf n lo ++ [hi] := by
  rw [bytesOf, List.range_succ, List.map_append]
  congr 1
  · refine List.map_congr_left fun k inside => byteOf_append_low k hi lo ?_
    have := List.mem_range.mp inside
    omega
  · rw [List.map_singleton, byteOf_append_high n hi lo whole.symm]

theorem bytesOf_one (v : Byte) : bytesOf 1 v = [v] := congrArg (· :: []) (byteOf_self v)

theorem bytes2_word2 (a b : Byte) : bytes2 (word2 a b) = [a, b] := by
  change bytesOf (1 + 1) (b ++ a) = _
  rw [bytesOf_append b a rfl, bytesOf_one]
  rfl

theorem bytes4_word4 (a b c d : Byte) : bytes4 (word4 a b c d) = [a, b, c, d] := by
  change bytesOf (3 + 1) (d ++ (c ++ (b ++ a))) = _
  rw [bytesOf_append d _ rfl, bytesOf_append c _ rfl, bytesOf_append b a rfl, bytesOf_one]
  rfl

theorem bytes8_word8 (a b c d e f g h : Byte) : bytes8 (word8 a b c d e f g h) = [a, b, c, d, e, f, g, h] := by
  change bytesOf (7 + 1) (h ++ (g ++ (f ++ (e ++ (d ++ (c ++ (b ++ a))))))) = _
  rw [bytesOf_append h _ rfl, bytesOf_append g _ rfl, bytesOf_append f _ rfl, bytesOf_append e _ rfl, bytesOf_append d _ rfl,
    bytesOf_append c _ rfl, bytesOf_append b a rfl, bytesOf_one]
  rfl

theorem byteOf_append_below {w : Nat} (n : Nat) (v : BitVec w) (m : Nat) (h : m = 8 * n) :
   byteOf n v ++ v.extractLsb' 0 m = v.extractLsb' 0 (8 + m) := by
  subst h
  ext i small
  simp only [byteOf, BitVec.getElem_append, BitVec.getElem_extractLsb', Nat.zero_add]
  split
  · rfl
  · congr 1; omega

theorem word2_bytes (v : BitVec 16) : word2 (byteOf 0 v) (byteOf 1 v) = v :=
  (byteOf_append_below 1 v 8 rfl).trans BitVec.extractLsb'_eq_self

theorem word4_bytes (v : BitVec 32) : word4 (byteOf 0 v) (byteOf 1 v) (byteOf 2 v) (byteOf 3 v) = v := by
  have low : byteOf 0 v = v.extractLsb' 0 8 := rfl
  rw [word4, low, byteOf_append_below 1 v 8 rfl, byteOf_append_below 2 v _ rfl, byteOf_append_below 3 v _ rfl]
  exact BitVec.extractLsb'_eq_self

theorem word8_bytes (v : BitVec 64) : word8 (byteOf 0 v) (byteOf 1 v) (byteOf 2 v) (byteOf 3 v) (byteOf 4 v) (byteOf 5 v) (byteOf 6 v) (byteOf 7 v) = v := by
  have low : byteOf 0 v = v.extractLsb' 0 8 := rfl
  rw [word8, low, byteOf_append_below 1 v 8 rfl, byteOf_append_below 2 v _ rfl, byteOf_append_below 3 v _ rfl, byteOf_append_below 4 v _ rfl,
    byteOf_append_below 5 v _ rfl, byteOf_append_below 6 v _ rfl, byteOf_append_below 7 v _ rfl]
  exact BitVec.extractLsb'_eq_self

/-! ### Commands and their payloads (R184, R190) -/

/-- A command with a code of R190 is the transaction that its frame is. -/
theorem transactionBytes_of_commandOf {c : Instr} {code : Byte} {payload : List Byte} (spelt : commandOf c = some (code, payload)) :
    transactionBytes c = some (linkFrame code payload) := by
  unfold transactionBytes
  split
  · cases spelt
  · cases spelt
  · cases spelt
  · cases spelt
  · rw [spelt]; rfl

/-- The command code table: each code with the lengths it allows (R190). -/
def commandLengths : List (Byte × List Nat) :=
  [(0x10, [2]), (0x11, [2]), (0x12, [3]), (0x13, [4, 3, 12, 21]), (0x14, [4]), (0x15, [2]), (0x16, [2]), (0x17, [5]), (0x20, [1, 13]), (0x21, [3]),
    (0x30, [12]), (0x31, [2]), (0x32, [1, 2]), (0x33, [0]), (0x34, [0]), (0x35, [0]), (0x40, [4]), (0x41, [1]), (0x50, [0, 8]), (0x51, [0]),
    (0x60, [0, 3]), (0x61, [0]), (0x62, [0]), (0x70, [9]), (0x71, [10]), (0x72, [0]), (0x73, [0]), (0x7F, [0])]

theorem commandCodes_eq : commandCodes = commandLengths.map (·.1) := rfl

/-- The lengths of a code of the table. -/
def lengthsOf (code : Byte) : List Nat := (commandLengths.lookup code).getD []

theorem lengthsOf_listed : ∀ x ∈ commandLengths, lengthsOf x.1 = x.2 := by decide

/-- A command's code is in the table, and its length is one of the code's. -/
theorem commandOf_listed {c : Instr} {code : Byte} {payload : List Byte} (spelt : commandOf c = some (code, payload)) :
    commandCodes.contains code = true ∧ (lengthsOf code).contains payload.length = true := by
  cases c <;> cases spelt <;> exact ⟨rfl, rfl⟩

theorem code_ne_zero {code : Byte} (listed : code ∈ commandCodes) : code ≠ 0 := by
  rintro rfl
  exact absurd listed (by decide)

theorem lengths_le : ∀ x ∈ commandLengths, ∀ n ∈ x.2, n ≤ 30 := by decide

/-- No code of the table allows more than 30 bytes. -/
theorem length_le_of_fits {code : Byte} {n : Nat} (listed : commandCodes.contains code = true) (fits : (lengthsOf code).contains n = true) : n ≤ 30 := by
  rw [commandCodes_eq, List.contains_iff_mem, List.mem_map] at listed
  obtain ⟨x, row, rfl⟩ := listed
  rw [lengthsOf_listed x row, List.contains_iff_mem] at fits
  exact lengths_le x row n fits

/-- A command's code and payload are read as that command; of a SET of four bytes the selector decides (R184). -/
theorem parseCommand_commandOf {c : Instr} {code : Byte} {payload : List Byte} (spelt : commandOf c = some (code, payload))
    (formed : c.wellFormed = true) : parseCommand code payload = some c := by
  cases c <;> cases spelt
  case setHold slot gen x v =>
    have other : x ≠ 3#8 := of_decide_eq_true formed
    exact congrArg some (if_neg other)
  case setAutoResume slot gen v => exact congrArg some (if_pos rfl)
  case setParameters slot gen x w c f n l =>
    change some (Instr.setParameters slot gen x (word2 (byteOf 0 w) (byteOf 1 w)) (word2 (byteOf 0 c) (byteOf 1 c))
      (word2 (byteOf 0 f) (byteOf 1 f)) n (word2 (byteOf 0 l) (byteOf 1 l))) = _
    simp only [word2_bytes]
  case setReference slot gen x a e r t u =>
    change some (Instr.setReference slot gen x (word4 (byteOf 0 a) (byteOf 1 a) (byteOf 2 a) (byteOf 3 a))
      (word4 (byteOf 0 e) (byteOf 1 e) (byteOf 2 e) (byteOf 3 e)) (word4 (byteOf 0 r) (byteOf 1 r) (byteOf 2 r) (byteOf 3 r))
      (word2 (byteOf 0 t) (byteOf 1 t)) (word4 (byteOf 0 u) (byteOf 1 u) (byteOf 2 u) (byteOf 3 u))) = _
    simp only [word2_bytes, word4_bytes]
  case classEntryWrite x a b d e f g =>
    change some (Instr.classEntryWrite x (word2 (byteOf 0 a) (byteOf 1 a)) (word2 (byteOf 0 b) (byteOf 1 b)) (word2 (byteOf 0 d) (byteOf 1 d))
      (word2 (byteOf 0 e) (byteOf 1 e)) (word2 (byteOf 0 f) (byteOf 1 f)) (word2 (byteOf 0 g) (byteOf 1 g))) = _
    simp only [word2_bytes]
  case pursue slot gen f n a e =>
    change some (Instr.pursue slot gen f n (word4 (byteOf 0 a) (byteOf 1 a) (byteOf 2 a) (byteOf 3 a))
      (word4 (byteOf 0 e) (byteOf 1 e) (byteOf 2 e) (byteOf 3 e))) = _
    simp only [word4_bytes]
  case setRevisit slot gen n =>
    change some (Instr.setRevisit slot gen (word2 (byteOf 0 n) (byteOf 1 n))) = _
    rw [word2_bytes]
  case syncWrite v =>
    change some (Instr.syncWrite (word8 (byteOf 0 v) (byteOf 1 v) (byteOf 2 v) (byteOf 3 v) (byteOf 4 v) (byteOf 5 v) (byteOf 6 v) (byteOf 7 v))) = _
    rw [word8_bytes]
  case scan a d n cond =>
    change some (Instr.scan a d n ⟨word2 (byteOf 0 cond.states) (byteOf 1 cond.states), cond.kinds, cond.owners, cond.qualifiers, cond.outcome⟩) = _
    rw [word2_bytes]
  case sweep a d n cond x =>
    change some (Instr.sweep a d n ⟨word2 (byteOf 0 cond.states) (byteOf 1 cond.states), cond.kinds, cond.owners, cond.qualifiers, cond.outcome⟩ x) = _
    rw [word2_bytes]
  all_goals rfl

/-- A command has a code and a payload of R190, and is one the world can send. -/
def Spelt (c : Instr) (code : Byte) (payload : List Byte) : Prop := commandOf c = some (code, payload) ∧ c.wellFormed = true

section
variable {c : Instr} {payload : List Byte}

/-- A SET of four bytes is that of auto-resume where its selector says so, and of another flag where not (R184). -/
theorem parseCommand_setFour (slot gen x v : Byte) (read : parseCommand 0x13#8 [slot, gen, x, v] = some c) : Spelt c 0x13#8 [slot, gen, x, v] := by
  have chosen : some (if x = 3#8 then Instr.setAutoResume slot gen v else Instr.setHold slot gen x v) = some c := read
  split at chosen
  · rename_i auto
    subst auto
    cases chosen
    exact ⟨rfl, rfl⟩
  · rename_i other
    cases chosen
    exact ⟨rfl, decide_eq_true other⟩

theorem parseCommand_create (read : parseCommand 0x10#8 payload = some c) : Spelt c 0x10#8 payload := by
  rcases payload with _ | ⟨a0, _ | ⟨a1, _ | ⟨_, _⟩⟩⟩
  case cons.cons.nil => cases read; exact ⟨rfl, rfl⟩
  all_goals cases read

theorem parseCommand_retire (read : parseCommand 0x11#8 payload = some c) : Spelt c 0x11#8 payload := by
  rcases payload with _ | ⟨a0, _ | ⟨a1, _ | ⟨_, _⟩⟩⟩
  case cons.cons.nil => cases read; exact ⟨rfl, rfl⟩
  all_goals cases read

theorem parseCommand_read (read : parseCommand 0x12#8 payload = some c) : Spelt c 0x12#8 payload := by
  rcases payload with _ | ⟨a0, _ | ⟨a1, _ | ⟨a2, _ | ⟨_, _⟩⟩⟩⟩
  case cons.cons.cons.nil => cases read; exact ⟨rfl, rfl⟩
  all_goals cases read

theorem parseCommand_set (read : parseCommand 0x13#8 payload = some c) : Spelt c 0x13#8 payload := by
  rcases payload with _ | ⟨a0, _ | ⟨a1, _ | ⟨a2, _ | ⟨a3, _ | ⟨a4, _ | ⟨a5, _ | ⟨a6, _ | ⟨a7, _ | ⟨a8, _ | ⟨a9, _ | ⟨a10, _ | 
      ⟨a11, _ | ⟨a12, _ | ⟨a13, _ | ⟨a14, _ | ⟨a15, _ | ⟨a16, _ | ⟨a17, _ | ⟨a18, _ | ⟨a19, _ | ⟨a20, _ | ⟨_, _⟩⟩⟩⟩⟩⟩⟩⟩⟩⟩⟩⟩⟩⟩⟩⟩⟩⟩⟩⟩⟩⟩
  case cons.cons.cons.nil => cases read; exact ⟨rfl, rfl⟩
  case cons.cons.cons.cons.nil => exact parseCommand_setFour a0 a1 a2 a3 read
  case cons.cons.cons.cons.cons.cons.cons.cons.cons.cons.cons.cons.nil =>
    cases read
    refine ⟨?_, rfl⟩
    change some (0x13#8, [a0, a1, a2] ++ bytes2 (word2 a3 a4) ++ bytes2 (word2 a5 a6) ++ bytes2 (word2 a7 a8) ++ [a9] ++ bytes2 (word2 a10 a11)) = _
    simp only [bytes2_word2]
    rfl
  case cons.cons.cons.cons.cons.cons.cons.cons.cons.cons.cons.cons.cons.cons.cons.cons.cons.cons.cons.cons.cons.nil =>
    cases read
    refine ⟨?_, rfl⟩
    change some (0x13#8, [a0, a1, a2] ++ bytes4 (word4 a3 a4 a5 a6) ++ bytes4 (word4 a7 a8 a9 a10) ++ bytes4 (word4 a11 a12 a13 a14) ++ bytes2 (word2 a15 a16)
        ++ bytes4 (word4 a17 a18 a19 a20)) = _
    simp only [bytes2_word2, bytes4_word4]
    rfl
  all_goals cases read

theorem parseCommand_changeKind (read : parseCommand 0x14#8 payload = some c) : Spelt c 0x14#8 payload := by
  rcases payload with _ | ⟨a0, _ | ⟨a1, _ | ⟨a2, _ | ⟨a3, _ | ⟨_, _⟩⟩⟩⟩⟩
  case cons.cons.cons.cons.nil => cases read; exact ⟨rfl, rfl⟩
  all_goals cases read

theorem parseCommand_take (read : parseCommand 0x15#8 payload = some c) : Spelt c 0x15#8 payload := by
  rcases payload with _ | ⟨a0, _ | ⟨a1, _ | ⟨_, _⟩⟩⟩
  case cons.cons.nil => cases read; exact ⟨rfl, rfl⟩
  all_goals cases read

theorem parseCommand_give (read : parseCommand 0x16#8 payload = some c) : Spelt c 0x16#8 payload := by
  rcases payload with _ | ⟨a0, _ | ⟨a1, _ | ⟨_, _⟩⟩⟩
  case cons.cons.nil => cases read; exact ⟨rfl, rfl⟩
  all_goals cases read

theorem parseCommand_windows (read : parseCommand 0x17#8 payload = some c) : Spelt c 0x17#8 payload := by
  rcases payload with _ | ⟨a0, _ | ⟨a1, _ | ⟨a2, _ | ⟨a3, _ | ⟨a4, _ | ⟨_, _⟩⟩⟩⟩⟩⟩
  case cons.cons.cons.cons.cons.nil => cases read; exact ⟨rfl, rfl⟩
  all_goals cases read

theorem parseCommand_classEntry (read : parseCommand 0x20#8 payload = some c) : Spelt c 0x20#8 payload := by
  rcases payload with _ | ⟨a0, _ | ⟨a1, _ | ⟨a2, _ | ⟨a3, _ | ⟨a4, _ | ⟨a5, _ | ⟨a6, _ | ⟨a7, _ | ⟨a8, _ | ⟨a9, _ | ⟨a10, _ | 
      ⟨a11, _ | ⟨a12, _ | ⟨_, _⟩⟩⟩⟩⟩⟩⟩⟩⟩⟩⟩⟩⟩⟩
  case cons.nil => cases read; exact ⟨rfl, rfl⟩
  case cons.cons.cons.cons.cons.cons.cons.cons.cons.cons.cons.cons.cons.nil =>
    cases read
    refine ⟨?_, rfl⟩
    change some (0x20#8, [a0] ++ bytes2 (word2 a1 a2) ++ bytes2 (word2 a3 a4) ++ bytes2 (word2 a5 a6) ++ bytes2 (word2 a7 a8) ++ bytes2 (word2 a9 a10)
        ++ bytes2 (word2 a11 a12)) = _
    simp only [bytes2_word2]
    rfl
  all_goals cases read

theorem parseCommand_changeClass (read : parseCommand 0x21#8 payload = some c) : Spelt c 0x21#8 payload := by
  rcases payload with _ | ⟨a0, _ | ⟨a1, _ | ⟨a2, _ | ⟨_, _⟩⟩⟩⟩
  case cons.cons.cons.nil => cases read; exact ⟨rfl, rfl⟩
  all_goals cases read

theorem parseCommand_pursue (read : parseCommand 0x30#8 payload = some c) : Spelt c 0x30#8 payload := by
  rcases payload with _ | ⟨a0, _ | ⟨a1, _ | ⟨a2, _ | ⟨a3, _ | ⟨a4, _ | ⟨a5, _ | ⟨a6, _ | ⟨a7, _ | ⟨a8, _ | ⟨a9, _ | ⟨a10, _ | 
      ⟨a11, _ | ⟨_, _⟩⟩⟩⟩⟩⟩⟩⟩⟩⟩⟩⟩⟩
  case cons.cons.cons.cons.cons.cons.cons.cons.cons.cons.cons.cons.nil =>
    cases read
    refine ⟨?_, rfl⟩
    change some (0x30#8, [a0, a1, a2, a3] ++ bytes4 (word4 a4 a5 a6 a7) ++ bytes4 (word4 a8 a9 a10 a11)) = _
    simp only [bytes4_word4]
    rfl
  all_goals cases read

theorem parseCommand_release (read : parseCommand 0x31#8 payload = some c) : Spelt c 0x31#8 payload := by
  rcases payload with _ | ⟨a0, _ | ⟨a1, _ | ⟨_, _⟩⟩⟩
  case cons.cons.nil => cases read; exact ⟨rfl, rfl⟩
  all_goals cases read

theorem parseCommand_priority (read : parseCommand 0x32#8 payload = some c) : Spelt c 0x32#8 payload := by
  rcases payload with _ | ⟨a0, _ | ⟨a1, _ | ⟨_, _⟩⟩⟩
  case cons.nil => cases read; exact ⟨rfl, rfl⟩
  case cons.cons.nil => cases read; exact ⟨rfl, rfl⟩
  all_goals cases read

theorem parseCommand_park (read : parseCommand 0x33#8 payload = some c) : Spelt c 0x33#8 payload := by
  rcases payload with _ | ⟨_, _⟩
  case nil => cases read; exact ⟨rfl, rfl⟩
  all_goals cases read

theorem parseCommand_unpark (read : parseCommand 0x34#8 payload = some c) : Spelt c 0x34#8 payload := by
  rcases payload with _ | ⟨_, _⟩
  case nil => cases read; exact ⟨rfl, rfl⟩
  all_goals cases read

theorem parseCommand_beamStatus (read : parseCommand 0x35#8 payload = some c) : Spelt c 0x35#8 payload := by
  rcases payload with _ | ⟨_, _⟩
  case nil => cases read; exact ⟨rfl, rfl⟩
  all_goals cases read

theorem parseCommand_setRevisit (read : parseCommand 0x40#8 payload = some c) : Spelt c 0x40#8 payload := by
  rcases payload with _ | ⟨a0, _ | ⟨a1, _ | ⟨a2, _ | ⟨a3, _ | ⟨_, _⟩⟩⟩⟩⟩
  case cons.cons.cons.cons.nil =>
    cases read
    refine ⟨?_, rfl⟩
    change some (0x40#8, [a0, a1] ++ bytes2 (word2 a2 a3)) = _
    simp only [bytes2_word2]
    rfl
  all_goals cases read

theorem parseCommand_revisitEntry (read : parseCommand 0x41#8 payload = some c) : Spelt c 0x41#8 payload := by
  rcases payload with _ | ⟨a0, _ | ⟨_, _⟩⟩
  case cons.nil => cases read; exact ⟨rfl, rfl⟩
  all_goals cases read

theorem parseCommand_sync (read : parseCommand 0x50#8 payload = some c) : Spelt c 0x50#8 payload := by
  rcases payload with _ | ⟨a0, _ | ⟨a1, _ | ⟨a2, _ | ⟨a3, _ | ⟨a4, _ | ⟨a5, _ | ⟨a6, _ | ⟨a7, _ | ⟨_, _⟩⟩⟩⟩⟩⟩⟩⟩⟩
  case nil => cases read; exact ⟨rfl, rfl⟩
  case cons.cons.cons.cons.cons.cons.cons.cons.nil =>
    cases read
    refine ⟨?_, rfl⟩
    change some (0x50#8, bytes8 (word8 a0 a1 a2 a3 a4 a5 a6 a7)) = _
    simp only [bytes8_word8]
  all_goals cases read

theorem parseCommand_portStatus (read : parseCommand 0x51#8 payload = some c) : Spelt c 0x51#8 payload := by
  rcases payload with _ | ⟨_, _⟩
  case nil => cases read; exact ⟨rfl, rfl⟩
  all_goals cases read

theorem parseCommand_noticeControl (read : parseCommand 0x60#8 payload = some c) : Spelt c 0x60#8 payload := by
  rcases payload with _ | ⟨a0, _ | ⟨a1, _ | ⟨a2, _ | ⟨_, _⟩⟩⟩⟩
  case nil => cases read; exact ⟨rfl, rfl⟩
  case cons.cons.cons.nil => cases read; exact ⟨rfl, rfl⟩
  all_goals cases read

theorem parseCommand_nextNotice (read : parseCommand 0x61#8 payload = some c) : Spelt c 0x61#8 payload := by
  rcases payload with _ | ⟨_, _⟩
  case nil => cases read; exact ⟨rfl, rfl⟩
  all_goals cases read

theorem parseCommand_deviceStatus (read : parseCommand 0x62#8 payload = some c) : Spelt c 0x62#8 payload := by
  rcases payload with _ | ⟨_, _⟩
  case nil => cases read; exact ⟨rfl, rfl⟩
  all_goals cases read

theorem parseCommand_scan (read : parseCommand 0x70#8 payload = some c) : Spelt c 0x70#8 payload := by
  rcases payload with _ | ⟨a0, _ | ⟨a1, _ | ⟨a2, _ | ⟨a3, _ | ⟨a4, _ | ⟨a5, _ | ⟨a6, _ | ⟨a7, _ | ⟨a8, _ | ⟨_, _⟩⟩⟩⟩⟩⟩⟩⟩⟩⟩
  case cons.cons.cons.cons.cons.cons.cons.cons.cons.nil =>
    cases read
    refine ⟨?_, rfl⟩
    change some (0x70#8, [a0, a1, a2] ++ bytes2 (word2 a3 a4) ++ [a5, a6, a7, a8]) = _
    simp only [bytes2_word2]
    rfl
  all_goals cases read

theorem parseCommand_sweep (read : parseCommand 0x71#8 payload = some c) : Spelt c 0x71#8 payload := by
  rcases payload with _ | ⟨a0, _ | ⟨a1, _ | ⟨a2, _ | ⟨a3, _ | ⟨a4, _ | ⟨a5, _ | ⟨a6, _ | ⟨a7, _ | ⟨a8, _ | ⟨a9, _ | ⟨_, _⟩⟩⟩⟩⟩⟩⟩⟩⟩⟩⟩
  case cons.cons.cons.cons.cons.cons.cons.cons.cons.cons.nil =>
    cases read
    refine ⟨?_, rfl⟩
    change some (0x71#8, [a0, a1, a2] ++ bytes2 (word2 a3 a4) ++ [a5, a6, a7, a8, a9]) = _
    simp only [bytes2_word2]
    rfl
  all_goals cases read

theorem parseCommand_sweepStatus (read : parseCommand 0x72#8 payload = some c) : Spelt c 0x72#8 payload := by
  rcases payload with _ | ⟨_, _⟩
  case nil => cases read; exact ⟨rfl, rfl⟩
  all_goals cases read

theorem parseCommand_sweepStop (read : parseCommand 0x73#8 payload = some c) : Spelt c 0x73#8 payload := by
  rcases payload with _ | ⟨_, _⟩
  case nil => cases read; exact ⟨rfl, rfl⟩
  all_goals cases read

theorem parseCommand_reset (read : parseCommand 0x7F#8 payload = some c) : Spelt c 0x7F#8 payload := by
  rcases payload with _ | ⟨_, _⟩
  case nil => cases read; exact ⟨rfl, rfl⟩
  all_goals cases read

end

/-- What a code of the table and a payload are read as has that code and payload, and is a command the world can send. -/
theorem spelt_of_parseCommand {c : Instr} {code : Byte} {payload : List Byte} (listed : code ∈ commandCodes)
    (read : parseCommand code payload = some c) : Spelt c code payload := by
  simp only [commandCodes, List.cons_append, List.nil_append, List.mem_cons, List.not_mem_nil, or_false] at listed
  rcases listed with rfl | rfl | rfl | rfl | rfl | rfl | rfl | rfl | rfl | rfl | rfl | rfl | rfl | rfl | rfl | rfl | rfl | rfl | rfl | rfl | rfl | rfl | rfl | rfl | rfl | rfl | rfl | rfl
  · exact parseCommand_create read
  · exact parseCommand_retire read
  · exact parseCommand_read read
  · exact parseCommand_set read
  · exact parseCommand_changeKind read
  · exact parseCommand_take read
  · exact parseCommand_give read
  · exact parseCommand_windows read
  · exact parseCommand_classEntry read
  · exact parseCommand_changeClass read
  · exact parseCommand_pursue read
  · exact parseCommand_release read
  · exact parseCommand_priority read
  · exact parseCommand_park read
  · exact parseCommand_unpark read
  · exact parseCommand_beamStatus read
  · exact parseCommand_setRevisit read
  · exact parseCommand_revisitEntry read
  · exact parseCommand_sync read
  · exact parseCommand_portStatus read
  · exact parseCommand_noticeControl read
  · exact parseCommand_nextNotice read
  · exact parseCommand_deviceStatus read
  · exact parseCommand_scan read
  · exact parseCommand_sweep read
  · exact parseCommand_sweepStatus read
  · exact parseCommand_sweepStop read
  · exact parseCommand_reset read

/-! ### A frame and the transaction it is (R176 to R179, R184) -/

/-- A transaction that passes both checks of R178 is what its code and its payload are read as. -/
theorem transactionOf_sound {first : Byte} {rest : List Byte} (command : first ≠ 0#8) (length : lengthSound (first :: rest) = true)
    (crc : crcSound (first :: rest) = true) :
    transactionOf (first :: rest) =
      if commandCodes.contains first then (parseCommand first rest.tail.dropLast).getD (.badframe (first :: rest))
      else .unknown first rest.tail.dropLast := by
  rw [transactionOf, if_neg command, length, crc]
  cases commandCodes.contains first <;> rfl

/-- A frame of at most 30 payload bytes is what its code and payload are read as. -/
theorem transactionOf_linkFrame {code : Byte} {payload : List Byte} (command : code ≠ 0) (short : payload.length ≤ 30) :
    transactionOf (linkFrame code payload) =
      if commandCodes.contains code then (parseCommand code payload).getD (.badframe (linkFrame code payload)) else .unknown code payload := by
  obtain ⟨length, crc⟩ := linkFrame_sound code payload short
  have whole : linkFrame code payload
      = code :: ((BitVec.ofNat 8 payload.length :: payload) ++ [crc8 (code :: BitVec.ofNat 8 payload.length :: payload)]) := rfl
  have inner : ((BitVec.ofNat 8 payload.length :: payload) ++ [crc8 (code :: BitVec.ofNat 8 payload.length :: payload)]).tail.dropLast = payload := by
    simp
  rw [whole] at length crc ⊢
  rw [transactionOf_sound command length crc, inner]

/-- A command of R190 is what its frame is read as. -/
theorem transactionOf_command {c : Instr} {code : Byte} {payload : List Byte} (spelt : commandOf c = some (code, payload))
    (formed : c.wellFormed = true) : transactionOf (linkFrame code payload) = c := by
  obtain ⟨listed, fits⟩ := commandOf_listed spelt
  rw [transactionOf_linkFrame (code_ne_zero (by simpa using listed)) (length_le_of_fits listed fits), if_pos listed, parseCommand_commandOf spelt formed]
  rfl

/-- Bytes that pass the length check and the CRC are the frame of their first byte and of what stands between length byte and CRC. -/
theorem linkFrame_of_sound {first : Byte} {rest : List Byte} (length : lengthSound (first :: rest) = true) (crc : crcSound (first :: rest) = true) :
    linkFrame first rest.tail.dropLast = first :: rest ∧ rest.tail.dropLast.length ≤ 30 := by
  simp only [lengthSound, Bool.and_eq_true, decide_eq_true_eq] at length
  obtain ⟨⟨long, small⟩, same⟩ := length
  obtain _ | ⟨len, body⟩ := rest
  · simp at long
  obtain rfl | ⟨payload, last, rfl⟩ := List.eq_nil_or_concat' body
  · simp at long
  simp only [List.length_cons, List.length_append, List.length_nil, List.getD_cons_succ, List.getD_cons_zero] at same small
  have spelt : BitVec.ofNat 8 payload.length = len := by
    rw [show payload.length = len.toNat by omega, BitVec.ofNat_toNat, BitVec.setWidth_eq]
  have checked : last = crc8 (first :: len :: payload) := by
    have judged : ((first :: len :: payload) ++ [last]).getLastD 0#8 = crc8 ((first :: len :: payload) ++ [last]).dropLast := of_decide_eq_true crc
    rwa [List.dropLast_concat, List.getLastD_concat] at judged
  rw [List.tail_cons, List.dropLast_concat]
  refine ⟨?_, by omega⟩
  rw [linkFrame, spelt, ← checked]
  rfl

/-! ### Every transaction is a command, and a command's frame that command -/

/-- What is no command of R190 has no payload of one, so that its transaction is written out. -/
theorem transactionBytes_cases {c : Instr} {bytes : List Byte} (spelt : transactionBytes c = some bytes) :
    (∃ n, c = .emptyTransaction n) ∨ (∃ rest, c = .readTransaction rest ∧ bytes = 0#8 :: rest) ∨ c = .badframe bytes
      ∨ (∃ code payload, c = .unknown code payload ∧ bytes = linkFrame code payload)
      ∨ ∃ code payload, commandOf c = some (code, payload) ∧ bytes = linkFrame code payload := by
  unfold transactionBytes at spelt
  split at spelt
  · exact Or.inl ⟨_, rfl⟩
  · exact Or.inr (Or.inl ⟨_, rfl, (Option.some.inj spelt).symm⟩)
  · exact Or.inr (Or.inr (Or.inl (congrArg Instr.badframe (Option.some.inj spelt))))
  · exact Or.inr (Or.inr (Or.inr (Or.inl ⟨_, _, rfl, (Option.some.inj spelt).symm⟩)))
  · obtain ⟨⟨code, payload⟩, command, rfl⟩ := Option.map_eq_some_iff.mp spelt
    exact Or.inr (Or.inr (Or.inr (Or.inr ⟨code, payload, command, rfl⟩)))

/-- A frame of a code outside the table is an unknown command (R184). -/
theorem transactionOf_unknown {code : Byte} {payload : List Byte} (command : code ≠ 0) (unlisted : commandCodes.contains code = false)
    (short : payload.length ≤ 30) : transactionOf (linkFrame code payload) = .unknown code payload := by
  rw [transactionOf_linkFrame command short, unlisted]
  rfl

/-- A bad frame is one that its bytes are read as. -/
theorem badframe_readsBack {bytes : List Byte} (bad : transactionOf bytes = .badframe bytes) :
    (transactionOf bytes).wellFormed = true ∧ transactionBytes (transactionOf bytes) = some bytes := by
  rw [bad]
  exact ⟨decide_eq_true bad, rfl⟩

/-- Bytes that pass both checks are read as a command with those bytes. -/
theorem sound_readsBack {first : Byte} {rest : List Byte} (command : first ≠ 0#8) (length : lengthSound (first :: rest) = true)
    (crc : crcSound (first :: rest) = true) :
    (transactionOf (first :: rest)).wellFormed = true ∧ transactionBytes (transactionOf (first :: rest)) = some (first :: rest) := by
  obtain ⟨frame, short⟩ := linkFrame_of_sound length crc
  have read := transactionOf_sound command length crc
  cases listed : commandCodes.contains first with
  | false =>
    rw [listed, if_neg Bool.false_ne_true] at read
    rw [read]
    refine ⟨?_, congrArg some frame⟩
    rw [Instr.wellFormed, listed, decide_eq_true command, decide_eq_true short]
    rfl
  | true =>
    rw [listed, if_pos rfl] at read
    cases parsed : parseCommand first rest.tail.dropLast with
    | none =>
      rw [parsed] at read
      exact badframe_readsBack read
    | some c =>
      rw [parsed] at read
      obtain ⟨spelt, formed⟩ := spelt_of_parseCommand (by simpa using listed) parsed
      rw [read]
      exact ⟨formed, (transactionBytes_of_commandOf spelt).trans (congrArg some frame)⟩

end Sys2Proof

open Sys2Proof Sys2Proof.Machine

/-- Settles O9: a transaction is empty, a read, a bad frame, an unknown code's frame, or the frame of a code and a payload; each is read back. -/
theorem commandsReadBack : Obligations.CommandsReadBack := by
  intro c bytes formed spelt nonempty
  rcases transactionBytes_cases spelt with ⟨n, rfl⟩ | ⟨rest, rfl, rfl⟩ | rfl | ⟨code, payload, rfl, rfl⟩ | ⟨code, payload, command, rfl⟩
  · exact absurd rfl (nonempty n)
  · rfl
  · exact of_decide_eq_true formed
  · simp only [Instr.wellFormed, Bool.and_eq_true, decide_eq_true_eq, Bool.not_eq_true'] at formed
    obtain ⟨⟨command, unlisted⟩, short⟩ := formed
    exact transactionOf_unknown command unlisted short
  · exact transactionOf_command command formed

/-- Settles O10: the first byte and the two checks decide what the bytes are; past them the frame is that of its code and payload. -/
theorem transactionsReadBack : Obligations.TransactionsReadBack := by
  intro bytes
  obtain _ | ⟨first, rest⟩ := bytes
  · exact ⟨rfl, rfl⟩
  by_cases command : first = 0#8
  · subst command
    exact ⟨rfl, rfl⟩
  cases length : lengthSound (first :: rest) with
  | false => exact badframe_readsBack (by rw [transactionOf, if_neg command, length]; rfl)
  | true =>
    cases crc : crcSound (first :: rest) with
    | false => exact badframe_readsBack (by rw [transactionOf, if_neg command, length, crc]; rfl)
    | true => exact sound_readsBack command length crc

end

section
/-! The pendant's frames read back, and the frames and codes that the manual writes out (R181, R183, R184, R190, R192, R203, 9.5). -/

namespace Sys2Proof

/-! ### The pendant's receiver (R192) -/

/-- The bytes of a frame after its length byte are gathered, and the check byte has the frame judged. -/
theorem receiveBytes_assembling (len check : Byte) (body : List Byte) :
    ∀ acc : List Byte, acc.length + body.length = len.toNat + 1 →
      receiveBytes (.assembling (len :: acc)) (body ++ [check]) = (.hunting, [judgePendantFrame (len :: acc ++ body) check]) := by
  induction body with
  | nil =>
    intro acc full
    have whole : acc.length = len.toNat + 1 := full
    simp [receiveBytes, receiveByte, whole]
  | cons b rest ih =>
    intro acc full
    have short : acc.length ≠ len.toNat + 1 := by rw [List.length_cons] at full; omega
    have gathered := ih (acc ++ [b]) (by rw [List.length_append, List.length_singleton]; rw [List.length_cons] at full; omega)
    simp only [List.cons_append, receiveBytes, receiveByte, if_neg short] at gathered ⊢
    simp only [List.append_assoc, List.singleton_append] at gathered
    simp [gathered]

/-- A frame of the pendant line that carries at most 12 bytes is judged by its check byte. -/
theorem receiveBytes_frame (kind check : Byte) {payload : List Byte} (short : payload.length ≤ 12) :
    receiveBytes .hunting (0xA7#8 :: BitVec.ofNat 8 payload.length :: kind :: payload ++ [check])
      = (.hunting, [judgePendantFrame (BitVec.ofNat 8 payload.length :: kind :: payload) check]) := by
  have length : (BitVec.ofNat 8 payload.length).toNat = payload.length := by
    rw [BitVec.toNat_ofNat]; omega
  have fits : ¬12 < (BitVec.ofNat 8 payload.length).toNat := by omega
  have gathered := receiveBytes_assembling (BitVec.ofNat 8 payload.length) check payload [kind] (by rw [length, List.length_singleton]; omega)
  have lead : receiveByte .hunting 0xA7#8 = (.assembling [], none) := rfl
  have announced : receiveByte (.assembling []) (BitVec.ofNat 8 payload.length) = (.assembling [BitVec.ofNat 8 payload.length], none) := if_neg fits
  have kinded : receiveByte (.assembling [BitVec.ofNat 8 payload.length]) kind = (.assembling [BitVec.ofNat 8 payload.length, kind], none) := by
    simp [receiveByte]
  simp only [List.cons_append, receiveBytes, lead, announced, kinded, gathered, Option.toList_none, List.nil_append]

theorem pendantRequest_of_kind {c : Instr} {kind : Byte} {payload : List Byte} (spelt : pendantKindOf c = some (kind, payload)) :
    pendantRequest kind payload = some c := by
  cases c <;> cases spelt <;> rfl

theorem judgePendantFrame_good {c : Instr} {kind len : Byte} {payload : List Byte} (spelt : pendantKindOf c = some (kind, payload)) :
    judgePendantFrame (len :: kind :: payload) (pendantCheck (len :: kind :: payload)) = c := by
  rw [judgePendantFrame, if_neg (not_not.mpr rfl)]
  change (pendantRequest kind payload).getD _ = c
  rw [pendantRequest_of_kind spelt, Option.getD_some]

theorem judgePendantFrame_mismatch {body : List Byte} {check : Byte} (other : check ≠ pendantCheck body) :
    judgePendantFrame body check = .pendantFrameError (.checkMismatch body check) := if_pos other.symm

/-! ### Codes of values read and written (9.5) -/

open Machine in
theorem kindOf_eq_some_iff (b : Byte) (x : Kind) : kindOf b = some x ↔ kindCode x = b := by
  refine ⟨fun spelt => ?_, fun code => by subst code; cases x <;> rfl⟩
  unfold kindOf at spelt
  split_ifs at spelt <;> cases spelt <;> subst_vars <;> rfl

open Machine in
theorem originOf_eq_some_iff (b : Byte) (x : Origin) : originOf b = some x ↔ originCode x = b := by
  refine ⟨fun spelt => ?_, fun code => by subst code; cases x <;> rfl⟩
  unfold originOf at spelt
  split_ifs at spelt <;> cases spelt <;> subst_vars <;> rfl

open Machine in
theorem groupOf_eq_some_iff (b : Byte) (x : Group) : groupOf b = some x ↔ groupCode x = b :=
  ⟨groupCode_of_groupOf, fun code => by subst code; cases x <;> rfl⟩

open Machine in
theorem walkOf_eq_some_iff (b : Byte) (x : WalkDirection) : walkOf b = some x ↔ walkCode x = b := by
  refine ⟨fun spelt => ?_, fun code => by subst code; cases x <;> rfl⟩
  unfold walkOf at spelt
  split_ifs at spelt <;> cases spelt <;> subst_vars <;> rfl

open Machine in
theorem actionOf_eq_some_iff (b : Byte) (x : SweepAction) : actionOf b = some x ↔ actionCode x = b := by
  refine ⟨fun spelt => ?_, fun code => by subst code; cases x <;> rfl⟩
  unfold actionOf at spelt
  split_ifs at spelt <;> cases spelt <;> subst_vars <;> rfl

open Machine in
theorem outcomeOf_eq_some_iff (b : Byte) (x : EndOutcome) : outcomeOf b = some x ↔ outcomeCode x = b := by
  refine ⟨fun spelt => ?_, fun code => by subst code; cases x <;> rfl⟩
  unfold outcomeOf at spelt
  split_ifs at spelt <;> cases spelt <;> subst_vars <;> rfl

/-! ### Lengths that the table does not allow (R184) -/

/-- A code of the table with a length the table does not allow it is a bad frame. -/
theorem transactionOf_badLength {x : Byte × List Nat} (row : x ∈ commandLengths) {payload : List Byte} (other : payload.length ∉ x.2)
    (short : payload.length ≤ 30) : transactionOf (linkFrame x.1 payload) = .badframe (linkFrame x.1 payload) := by
  have listed : x.1 ∈ commandCodes := by
    rw [commandCodes_eq]
    exact List.mem_map_of_mem row
  have unread : parseCommand x.1 payload = none := by
    cases read : parseCommand x.1 payload with
    | none => rfl
    | some c =>
      obtain ⟨-, fits⟩ := commandOf_listed (spelt_of_parseCommand listed read).1
      rw [lengthsOf_listed x row, List.contains_iff_mem] at fits
      exact absurd fits other
  rw [transactionOf_linkFrame (code_ne_zero listed) short, if_pos (by simpa using listed), unread, Option.getD_none]

end Sys2Proof

open Sys2Proof Sys2Proof.Machine

/-- Settles O11: the receiver gathers the bytes that the length byte announces, and the check byte decides between the request and a mismatch. -/
theorem pendantFramesReadBack : Obligations.PendantFramesReadBack := by
  intro c kind payload spelt short
  refine ⟨?_, fun check other => ?_⟩
  · rw [pendantFrame]
    exact (receiveBytes_frame kind _ short).trans (by rw [judgePendantFrame_good spelt])
  · rw [receiveBytes_frame kind check short, judgePendantFrame_mismatch other]

/-- Settles O8: the manual's frames are evaluated; the forms, the codes and the rows of the table are those of the definitions, and outside the table a frame is
unknown, or bad in its length. -/
theorem framesOfTheManual : Obligations.FramesOfTheManual := by
  unfold Obligations.FramesOfTheManual
  intro sent lengths
  refine ⟨by decide +kernel, by decide +kernel, by decide +kernel, by decide +kernel, by decide +kernel, by decide +kernel, by decide +kernel, by decide +kernel,
    by decide +kernel, by decide +kernel, by decide +kernel, by decide +kernel, by decide +kernel, by decide +kernel, by decide +kernel, by decide +kernel,
    fun _ _ => rfl, fun _ _ => rfl, fun kind payload => ?_, fun _ => rfl, fun _ => rfl, fun _ => rfl, fun _ => rfl, rfl,
    fun a b x y => ⟨rfl, rfl, rfl, rfl, rfl, rfl, rfl, rfl, rfl, fun _ => rfl, rfl, rfl, rfl, rfl, rfl, rfl, rfl⟩,
    fun a b x n p q r t u v az el rg rt => ⟨rfl, rfl, rfl, rfl, rfl⟩, fun a d n x v states kinds owners qualifiers outcome => ⟨rfl, rfl, rfl⟩,
    rfl, rfl, rfl, rfl, rfl, rfl, rfl, rfl, rfl, rfl, rfl, fun code payload command unlisted short => ?_, fun x row payload other short => ?_,
    rfl, rfl, rfl, rfl, rfl, rfl, rfl, rfl, rfl, rfl, kindOf_eq_some_iff, originOf_eq_some_iff, groupOf_eq_some_iff, walkOf_eq_some_iff,
    actionOf_eq_some_iff, outcomeOf_eq_some_iff⟩
  · simp [pendantFrame, pendantCheck]
  · have outside : code ∉ commandCodes := unlisted
    exact transactionOf_unknown command (by simpa using outside) short
  · exact transactionOf_badLength row other short

end

section
/-! The commands that observe, and those that write one value of a block: PRIORITY, SYNC, NEXT-NOTICE, DEVICE-STATUS, SET-REVISIT and the status reads (R82, R83,
R101, R105, R106, R120, R139, R142, R148, R150, R154, R172). -/

namespace Sys2Proof.Machine

variable {s : State}

/-! ### What PARK and the RESET command keep (R83) -/

theorem foldl_toDormant_setup {α : Type} (handle : α → Handle) (o : EndOutcome) (l : List α) :
    ∀ s : State, SameSetup s (l.foldl (fun s x => s.toDormant (handle x) o) s) := by
  induction l with
  | nil => exact SameSetup.refl
  | cons x rest ih => exact fun s => (toDormant_setup s _ _).trans (ih _)

theorem driveHome_setup (s : State) : SameSetup s s.driveHome := by
  unfold State.driveHome
  split
  · exact sendMove_setup s _
  · exact sendHalt_setup s

theorem parkGrant_setup (s : State) : SameSetup s s.parkGrant := by
  unfold State.parkGrant
  split
  · exact (((endPursuit_setup s _).trans (setGrant_setup _ _)).trans (toDormant_setup _ _ _)).trans (reportEnd_setup _ _ _)
  · exact SameSetup.refl s

theorem parkCollections_setup (s : State) : SameSetup s s.parkCollections :=
  (((setQueue_setup s _).trans (setStack_setup _ _)).trans (foldl_toDormant_setup _ _ _ _)).trans (setArrivalCounter_setup _ _)

theorem freeze_setup (s : State) : SameSetup s s.freeze :=
  ((setRunMode_setup s _).trans (setEntries_setup _ _)).trans (setFrozen_setup _ _)

theorem takePark_setup (s : State) : SameSetup s (takePark s).1 := by
  unfold takePark
  split
  · exact SameSetup.refl s
  · exact (((parkGrant_setup s).trans (parkCollections_setup _)).trans (driveHome_setup _)).trans (freeze_setup _)

/-- A settled station command whose block keeps the setup keeps what stands in the setup. -/
theorem settled_priorities {i : Instr} {take : State → State × Response} (up : s.resetnLow = false) (setup : ∀ u, SameSetup u (take u).1) :
    ∃ t, s.station i (settled take) = .next t ∧ t.arbiter.priorities = s.arbiter.priorities :=
  ⟨_, station_high s _ _ up, ((setup (s.atRise i)).trans (settle_setup _ _)).priorities⟩

theorem takeReset_priorities (s : State) : s.takeReset.arbiter.priorities = s.arbiter.priorities := by
  rw [takeReset_eq]
  have cleared := (cleared_fields ((s.endPursuit true).setContext none)).2.1
  rw [(driveHome_setup _).priorities, cleared]
  exact ((endPursuit_setup s true).trans (setContext_setup _ _)).priorities

theorem exec_reset : exec .reset s = s.station .reset fun u => bare u.takeReset .ok := rfl

/-- The RESET command is answered OK. -/
theorem exec_reset_high (up : s.resetnLow = false) : exec .reset s = .next ((s.atRise .reset).takeReset.respond (noPayload .ok)) := by
  rw [exec_reset, station_high s _ _ up, bare_eq]

@[simp] theorem arbiter_respond (t : State) (x : Response) : (t.respond x).arbiter = t.arbiter := rfl

theorem exec_reset_priorities (up : s.resetnLow = false) : ∃ t, exec .reset s = .next t ∧ t.arbiter.priorities = s.arbiter.priorities := by
  refine ⟨_, exec_reset_high up, ?_⟩
  rw [arbiter_respond, takeReset_priorities]
  rfl

/-! ### PRIORITY (R83) -/

theorem originOf_eq_none {b : Byte} (above : 3 < b.toNat) : originOf b = none := by
  have : b ≠ 0#8 ∧ b ≠ 1#8 ∧ b ≠ 2#8 ∧ b ≠ 3#8 := by bv_omega
  simp [originOf, this]

/-- INTERNAL and the codes above it name no origin whose priority can be written. -/
theorem takePriorityWrite_range {origin value : Byte} (outside : 3 ≤ origin.toNat ∨ 6 < value.toNat) :
    takePriorityWrite origin value s = (s, noPayload .range) := by
  unfold takePriorityWrite
  split
  · rfl
  · rfl
  · rename_i o internal spelt
    have small : ¬3 ≤ origin.toNat := by
      rw [← (Sys2Proof.originOf_eq_some_iff origin o).mp spelt]
      cases o
      case internal => exact (internal rfl).elim
      all_goals decide
    rw [if_pos (outside.resolve_left small), bare_eq]

theorem priorityTable_write (p : PriorityTable) (o : Origin) (v : Nat) (external : o ≠ .internal) :
    p.write o v = { station := if o = .station then v else p.station, pendant := if o = .pendant then v else p.pendant
                    revisit := if o = .revisit then v else p.revisit } := by
  cases o
  case internal => exact absurd rfl external
  all_goals rfl

theorem takePriorityWrite_external {origin value : Byte} {o : Origin} (spelt : originOf origin = some o) (external : o ≠ .internal)
    (small : value.toNat ≤ 6) :
    takePriorityWrite origin value s =
      if value.toNat = s.arbiter.priorities.value o then (s, noPayload .already)
      else (s.setPriorities (s.arbiter.priorities.write o value.toNat), noPayload .ok) := by
  have low : ¬6 < value.toNat := by omega
  rw [takePriorityWrite, spelt]
  cases o
  case internal => exact absurd rfl external
  all_goals simp only [if_neg low, bare_eq]

/-! ### SYNC (R142) -/

theorem setWidth_of_toNat_eq {v : Time} {value : BitVec 64} (spelt : v.toNat = value.toNat) : value.setWidth 48 = v :=
  BitVec.eq_of_toNat_eq (by rw [BitVec.toNat_setWidth, ← spelt, Nat.mod_eq_of_lt v.isLt])

theorem takeSyncWrite_range {value : BitVec 64} (above : 2 ^ 48 ≤ value.toNat) : takeSyncWrite value s = (s, noPayload .range) := by
  rw [takeSyncWrite]
  exact if_pos above

theorem takeSyncWrite_inRange {v : Time} {value : BitVec 64} (spelt : v.toNat = value.toNat) :
    takeSyncWrite value s =
      if v - s.time.count = s.time.offset then (s, noPayload .already) else (s.setOffset (v - s.time.count), noPayload .ok) := by
  have below : ¬2 ^ 48 ≤ value.toNat := by have := v.isLt; omega
  rw [takeSyncWrite, setWidth_of_toNat_eq spelt]
  exact if_neg below

/-! ### The status answers (R101, R139, R154, R172) -/

theorem grantItems_grantBytes : GrantItems s s.grantBytes := by
  refine ⟨fun g r granted held => ?_, fun absent => ?_⟩
  · rw [State.grantBytes, granted]
    simp [State.stateByte, held, handleBytes, nat1, flagByte]
  · rw [State.grantBytes, absent]
    rfl

theorem sweepItems_statusBytes (w : SweepUnit) : SweepItems w w.statusBytes := by
  refine ⟨fun x flying => ?_, fun x idle last => ?_, fun idle last => ?_⟩
  · rw [SweepUnit.statusBytes, flying]; rfl
  · rw [SweepUnit.statusBytes, idle, last]; rfl
  · rw [SweepUnit.statusBytes, idle, last]; rfl

/-- The three flags of PORT-STATUS. -/
theorem portFlags (a b c : Bool) :
    let flags := flagBit 0 a ||| flagBit 1 b ||| flagBit 2 c
    flags.getLsbD 0 = a ∧ flags.getLsbD 1 = b ∧ flags.getLsbD 2 = c ∧ flags.toNat < 8 := by
  revert a b c
  decide

theorem rangeTimeLeft_some {q : RangeRequest} (outstanding : s.ports.outstanding = some q) :
    (DeadlineReached s q.deadline → s.rangeTimeLeft = 0) ∧ (¬DeadlineReached s q.deadline → s.rangeTimeLeft = (q.deadline - s.time.count).toNat) := by
  rw [State.rangeTimeLeft, outstanding]
  dsimp only
  refine ⟨fun came => if_pos (reached_iff.mpr came), fun waits => if_neg (mt reached_iff.mp waits)⟩

theorem rangeTimeLeft_none (absent : s.ports.outstanding = none) : s.rangeTimeLeft = 0 := by
  rw [State.rangeTimeLeft, absent]

/-- A command that only reads answers what it reads of the state before it. -/
theorem station_reads {i : Instr} {payload : State → List Byte} (up : s.resetnLow = false) (reads : payload (s.atRise i) = payload s) :
    (s.station i fun u => answered u .ok (payload u)) = .next (answeredBy s i (okPayload (payload s)) s) :=
  station_answers (take := fun u => answered u .ok (payload u)) up (by rw [reads]; rfl)

theorem queueEntryBytes_eq (e : QueueEntry) :
    queueEntryBytes e = [BitVec.ofNat 8 e.request.handle.slot.val, e.request.handle.generation, originCode e.request.origin,
      BitVec.ofNat 8 e.request.priority] ++ bytes2 (BitVec.ofNat 16 e.arrival) ++ [flagByte e.request.aim.isSome] := rfl

/-! ### REVISIT-ENTRY (R120) -/

theorem takeRevisitEntry_range {position : Byte} (above : 31 < position.toNat) : takeRevisitEntry position s = (s, noPayload .range) := by
  rw [takeRevisitEntry, if_pos above, bare_eq]

theorem takeRevisitEntry_none {position : Byte} (inside : position.toNat ≤ 31) (past : s.scheduler.entries.length ≤ position.toNat) :
    takeRevisitEntry position s = (s, okPayload [BitVec.ofNat 8 s.scheduler.entries.length]) := by
  rw [takeRevisitEntry, if_neg (by omega), List.getElem?_eq_none past]
  rfl

theorem takeRevisitEntry_some {position : Byte} {e : RevisitEntry} {r : Record} (inside : position.toNat ≤ 31)
    (listed : s.scheduler.entries[position.toNat]? = some e) (held : s.live e.handle = some r) :
    takeRevisitEntry position s = (s, okPayload
      ([BitVec.ofNat 8 s.scheduler.entries.length, BitVec.ofNat 8 e.handle.slot.val, e.handle.generation]
        ++ bytes2 (BitVec.ofNat 16 r.period) ++ bytes6 (e.due + s.time.offset)
        ++ [Config.revisitStatusCode e.status, BitVec.ofNat 8 r.missCount])) := by
  rw [takeRevisitEntry, if_neg (by omega), listed]
  dsimp only
  rw [State.revisitEntryBytes, held]
  simp [answered, okPayload, handleBytes, nat1, nat2]

/-! ### NEXT-NOTICE and DEVICE-STATUS (R150, R154) -/

theorem takeNextNotice_device (pending : s.notices.unmaskedDevice ≠ 0#7) :
    takeNextNotice s = (s.clearDeviceNotices,
      okPayload [Config.noticeSourceCode .device, s.notices.unmaskedDevice.setWidth 8, flagByte s.clearDeviceNotices.anyPending]) := by
  rw [takeNextNotice, if_pos pending]
  rfl

/-- A slot has an unmasked kind pending where its record has one. -/
theorem slotPending_of_record {i : Fin 48} {r : Record} (held : s.recordAt i = some r) :
    s.slotPending i = decide (r.notices &&& ~~~s.notices.recordMask ≠ 0#8) := by
  rw [slotPending_eq, held]
  rfl

theorem takeNextNotice_record {i : Fin 48} {r : Record} (none_ : s.notices.unmaskedDevice = 0#7) (held : s.recordAt i = some r)
    (pending : s.slotPending i = true) (below : ∀ k, k < i → s.slotPending k = false) :
    let t := (s.withRecord (s.handleOf i) { r with notices := r.notices &&& s.notices.recordMask }).judgeLine
    takeNextNotice s = (t, okPayload [Config.noticeSourceCode .record, BitVec.ofNat 8 i.val, (s.slotAt i).generation,
      r.notices &&& ~~~s.notices.recordMask, flagByte t.anyPending]) := by
  have live : s.live (s.handleOf i) = some r := (live_handleOf s i).trans held
  have first : s.firstPending = some i := find_allSlots pending below
  rw [takeNextNotice, if_neg (not_not.mpr none_), first]
  dsimp only
  rw [State.clearRecordNotices, modifyRecord_live s _ live, held]
  rfl

theorem takeNextNotice_none (none_ : s.notices.unmaskedDevice = 0#7) (silent : ∀ k, s.slotPending k = false) :
    takeNextNotice s = (s, okPayload [Config.noticeSourceCode .none, 0]) := by
  have first : s.firstPending = none := List.find?_eq_none.mpr fun k _ => by simp [silent k]
  have any : s.anyPending = false := by simp [State.anyPending, none_, silent]
  rw [takeNextNotice, if_neg (not_not.mpr none_), first]
  dsimp only
  rw [any]
  rfl

theorem judgeLine_respond_atRise (i : Instr) (x : Response) (h : Handle) (r : Record) :
    ((s.atRise i).withRecord h r).judgeLine.respond x = answeredBy s i x (s.withRecord h r).judgeLine := rfl

/-! ### SET-REVISIT (R105, R106) -/

theorem placeEntry_splits (x : State) (e : RevisitEntry) :
    ∃ before later, x.placeEntry e = { x with scheduler := { x.scheduler with entries := before ++ e :: later } }
      ∧ before ++ later = withoutEntry e.handle.slot x.scheduler.entries ∧ (∀ y ∈ before, ¬ListBefore e y)
      ∧ (∀ y, later.head? = some y → ListBefore e y)
      ∧ ((withoutEntry e.handle.slot x.scheduler.entries).Pairwise ListBefore → (before ++ e :: later).Pairwise ListBefore) := by
  obtain ⟨before, later, placed, parts, lower, upper⟩ := insertEntry_splits e (withoutEntry e.handle.slot x.scheduler.entries)
  refine ⟨before, later, by rw [State.placeEntry, placed]; rfl, parts, lower, upper, fun sorted => ?_⟩
  rw [← placed]
  exact insertEntry_sorted (fun y listed => (mem_withoutEntry.mp listed).2) sorted

section
variable {h : Handle} {r : Record} {p : Nat}

theorem setRevisitOf_kind (roving : r.kind = .roving) : s.setRevisitOf h r p = (s, .kind) := if_pos roving

theorem setRevisitOf_range (fixed : r.kind ≠ .roving) (outside : ¬PeriodFits p) : s.setRevisitOf h r p = (s, .range) := by
  have unfit : periodInRange p = false := by rwa [← Bool.not_eq_true, periodInRange_iff]
  rw [State.setRevisitOf, if_neg fixed, if_pos unfit]

/-- Past KIND and RANGE: FULL, ALREADY, or the period written and the list brought up to it. -/
theorem setRevisitOf_fits (live : s.live h = some r) (fixed : r.kind ≠ .roving) (fits : PeriodFits p) :
    s.setRevisitOf h r p =
      if p ≠ 0 ∧ s.entryAt h.slot = none ∧ 32 ≤ s.scheduler.entries.length then (s, .full)
      else if p = r.period then (s, .already)
      else ((s.withRecord h { r with period := p }).reschedule h p, .ok) := by
  have fit : ¬periodInRange p = false := by rw [Bool.not_eq_false, periodInRange_iff]; exact fits
  rw [State.setRevisitOf, if_neg fixed, if_neg fit, modifyRecord_live s _ live]

/-- A REVISIT-origin request stands for a slot, in the queue or with the grant. -/
theorem revisitRequested_iff (i : Fin 48) :
    s.revisitRequested i = true ↔ (∃ e, s.queuedAt i = some e ∧ e.request.origin = .revisit)
      ∨ ∃ g, s.arbiter.grant = some g ∧ g.handle.slot = i ∧ g.origin = .revisit := by
  rw [State.revisitRequested]
  cases s.queuedAt i <;> cases s.arbiter.grant <;> simp

/-- A record's new period is not looked at when its entry's status is chosen. -/
theorem statusAtPeriod_withRecord (i : Fin 48) : (s.withRecord h r).statusAtPeriod i = s.statusAtPeriod i := rfl

theorem statusAtPeriod_atRise (j : Instr) (i : Fin 48) : (s.atRise j).statusAtPeriod i = s.statusAtPeriod i := rfl

theorem statusAtPeriod_none (absent : s.entryAt h.slot = none) :
    s.statusAtPeriod h.slot = if s.revisitRequested h.slot then .offered else .scheduled := by
  rw [State.statusAtPeriod, absent]

theorem statusAtPeriod_some {e : RevisitEntry} (listed : s.entryAt h.slot = some e) :
    s.statusAtPeriod h.slot = if e.status = .offered then .offered else .scheduled := by
  rw [State.statusAtPeriod, listed]

theorem reschedule_zero (zero : p = 0) : s.reschedule h p = s.removeEntry h.slot := if_pos zero

theorem reschedule_nonzero (nonzero : p ≠ 0) :
    s.reschedule h p = s.placeEntry { handle := h, due := s.time.count + BitVec.ofNat 48 (p * 1000000), status := s.statusAtPeriod h.slot } := by
  rw [State.reschedule, if_neg nonzero]
  rfl

end

theorem deviceStatusPayload_eq (s : State) :
    s.deviceStatusPayload =
      bytes2 (BitVec.ofNat 16 s.notices.falseReturns) ++ bytes2 (BitVec.ofNat 16 s.notices.rangeFailures)
        ++ bytes2 (BitVec.ofNat 16 s.notices.frameRejects)
        ++ [BitVec.ofNat 8 s.notices.pendantErrors, Config.runModeCode s.arbiter.runMode] ++ s.grantBytes
        ++ [BitVec.ofNat 8 s.arbiter.queue.length, BitVec.ofNat 8 s.arbiter.stack.length, BitVec.ofNat 8 s.scheduler.entries.length]
        ++ s.sweep.statusBytes ++ [s.notices.device.setWidth 8] := by
  simp only [State.deviceStatusPayload, nat1, nat2, List.append_assoc, List.cons_append, List.nil_append]

end Sys2Proof.Machine

open Sys2Proof Sys2Proof.Machine

/-- Settles O29: the origin's code and the value decide; PARK and the RESET command work on other fields of the arbiter. -/
theorem priorityReadsAndWrites : Obligations.PriorityReadsAndWrites := by
  intro s origin value up
  refine ⟨fun o spelt => ?_, fun above => ?_, fun outside => ?_, fun o spelt external small => ?_, settled_priorities (i := .park) up takePark_setup,
    exec_reset_priorities up⟩
  · exact station_answers (take := takePriorityRead origin) up (by rw [takePriorityRead, spelt]; rfl)
  · exact station_answers (take := takePriorityRead origin) up (by rw [takePriorityRead, originOf_eq_none above]; rfl)
  · exact station_answers (take := takePriorityWrite origin value) up (takePriorityWrite_range outside)
  · have taken := takePriorityWrite_external (s := s.atRise (.priorityWrite origin value)) spelt external small
    split
    · rename_i same
      exact station_answers (take := takePriorityWrite origin value) up (taken.trans (if_pos same))
    · rename_i changed
      refine station_leaves (take := takePriorityWrite origin value) up (taken.trans (if_neg changed)) ?_
      rw [priorityTable_write _ _ _ external]
      rfl

/-- Settles O35: the offset is judged on the value less the count, and a new one makes the count show as the value. -/
theorem syncMovesOffset : Obligations.SyncMovesOffset := by
  intro s value up i
  refine ⟨fun above => station_answers (take := takeSyncWrite value) up (takeSyncWrite_range above), fun v spelt => ⟨fun same => ?_, fun changed => ?_⟩⟩
  · exact station_answers (take := takeSyncWrite value) up ((takeSyncWrite_inRange spelt).trans (if_pos same))
  · refine ⟨_, station_leaves (take := takeSyncWrite value) up ((takeSyncWrite_inRange spelt).trans (if_neg changed)) rfl, rfl, ?_⟩
    exact add_sub_cancel s.time.count v

/-- Settles O32: each observer's payload is formed of what stood before it; the queue is shown in the order of selection. -/
theorem observersChangeNothing : Obligations.ObserversChangeNothing := by
  intro s position up bit request
  refine ⟨⟨s.grantBytes, selectionOrder s.arbiter.queue.length s.arbiter.queue, grantItems_grantBytes, selectionOrder_sorted _ _ rfl, ?_⟩, ?_,
    ⟨s.sweep.statusBytes, sweepItems_statusBytes _, station_reads (payload := fun u => u.sweep.statusBytes) up rfl⟩,
    exec_noticeControlRead s up, station_reads (payload := fun u => bytes6 u.reportedNow ++ bytes6 u.time.offset) up rfl,
    fun above => station_answers (take := takeRevisitEntry position) up (takeRevisitEntry_range above),
    fun inside past => station_answers (take := takeRevisitEntry position) up (takeRevisitEntry_none inside past),
    fun e r inside listed held => station_answers (take := takeRevisitEntry position) up (takeRevisitEntry_some inside listed held)⟩
  · exact station_reads (payload := State.beamStatusPayload) up rfl
  · obtain ⟨expected, move, range, small⟩ := portFlags s.ports.expectedFrame.isSome s.ports.latestMoveTag.isSome s.ports.outstanding.isSome
    exact ⟨_, s.rangeTimeLeft, expected, move, range, small, fun q => rangeTimeLeft_some, rangeTimeLeft_none,
      station_reads (payload := State.portStatusPayload) up rfl⟩

/-- Settles O37: the device set goes first, then the lowest slot with an unmasked kind; what is handed out is what the masks let through. -/
theorem noticesAreHandedOut : Obligations.NoticesAreHandedOut := by
  intro s up unmasked pendingOf
  have pends (k : Fin 48) : s.slotPending k = decide (pendingOf k ≠ 0) := by
    rw [slotPending_eq]
    cases held : s.recordAt k with
    | none => simp [pendingOf, held]
    | some r =>
      have handed : pendingOf k = r.notices &&& ~~~s.notices.recordMask := by simp [pendingOf, held]
      rw [handed]
      rfl
  refine ⟨fun pending => station_leaves (take := takeNextNotice) up (takeNextNotice_device (s := s.atRise _) pending) rfl,
    fun j r clear held pending below => ?_, fun clear silent => ?_, s.grantBytes, s.sweep.statusBytes, grantItems_grantBytes, sweepItems_statusBytes _, ?_⟩
  · have handed : pendingOf j = r.notices &&& ~~~s.notices.recordMask := by simp [pendingOf, held]
    rw [handed]
    exact station_leaves (take := takeNextNotice) up
      (takeNextNotice_record (s := s.atRise _) clear held ((pends j).trans (decide_eq_true pending))
        fun k lower => (pends k).trans (decide_eq_false (not_not.mpr (below k lower)))) rfl
  · exact station_answers (take := takeNextNotice) up
      (takeNextNotice_none (s := s.atRise _) clear fun k => (pends k).trans (decide_eq_false (not_not.mpr (silent k))))
  · rw [← deviceStatusPayload_eq]
    exact station_leaves (take := fun u => answered u.clearCounters .ok u.deviceStatusPayload)
      (t' := (s.atRise .deviceStatus).clearCounters) up rfl rfl

/-- Settles O34: where an entry is placed; then KIND, RANGE, FULL and ALREADY in that order, and by the old entry and the standing request the new one. -/
theorem setRevisitKeepsList : Obligations.SetRevisitKeepsList := by
  refine ⟨fun x e => ⟨rfl, placeEntry_splits x e⟩, ?_⟩
  intro s slot gen period h r up ok i p t requested dueNext fits full
  have live : (s.atRise i).live h = some r := (lookupOwned_ok s ok).1
  have leaves {a : Answer} {u u' : State} (judged : (s.atRise i).setRevisitOf h r p = (u', a))
      (left : u'.respond (noPayload a) = answeredBy s i (noPayload a) u) : exec i s = .next (answeredBy s i (noPayload a) u) :=
    station_leaves (take := takeSetRevisit slot gen period) up
      (onRecord_judged (change := fun h r => (s.atRise i).setRevisitOf h r p) (by rwa [lookupOwned_atRise]) judged) left
  refine ⟨fun roving => leaves (setRevisitOf_kind roving) (respond_atRise s _ _),
    fun fixed outside => leaves (setRevisitOf_range fixed outside) (respond_atRise s _ _),
    fun fixed inside nofit => leaves ((setRevisitOf_fits live fixed inside).trans (if_pos nofit)) (respond_atRise s _ _), fun fixed inside room => ?_⟩
  have judged := (setRevisitOf_fits live fixed inside).trans (if_neg room)
  refine ⟨fun same => leaves (judged.trans (if_pos same)) (respond_atRise s _ _), fun changed zero => ?_, fun changed nonzero =>
    ⟨fun absent stands => ?_, fun absent free => ?_, fun e listed => ?_⟩⟩
  · refine leaves (judged.trans (if_neg changed)) ?_
    rw [reschedule_zero zero]
    rfl
  all_goals
    refine leaves (judged.trans (if_neg changed)) ?_
    rw [reschedule_nonzero nonzero]
  · rw [statusAtPeriod_withRecord, statusAtPeriod_atRise, statusAtPeriod_none absent, if_pos ((revisitRequested_iff h.slot).mpr stands)]
    rfl
  · rw [statusAtPeriod_withRecord, statusAtPeriod_atRise, statusAtPeriod_none absent, if_neg (mt (revisitRequested_iff h.slot).mp free)]
    rfl
  · rw [statusAtPeriod_withRecord, statusAtPeriod_atRise, statusAtPeriod_some listed]
    rfl

end


section
/-! The scan's walk over the table and what a sweep's start and stop leave (chapter 8); the count of detector frames (R122, R123). -/

namespace Sys2Proof.Machine

variable (s : State)

/-! ### Conditions (R158, R159, R160) -/

theorem outcomeOf_eq_none_iff (b : Byte) : outcomeOf b = none ↔ 8 ≤ b.toNat := by
  constructor
  · intro none_
    by_contra small
    have : b = 0#8 ∨ b = 1#8 ∨ b = 2#8 ∨ b = 3#8 ∨ b = 4#8 ∨ b = 5#8 ∨ b = 6#8 ∨ b = 7#8 := by bv_omega
    rcases this with rfl | rfl | rfl | rfl | rfl | rfl | rfl | rfl <;> exact absurd none_ (by decide)
  · intro above
    have : b ≠ 0#8 ∧ b ≠ 1#8 ∧ b ≠ 2#8 ∧ b ≠ 3#8 ∧ b ≠ 4#8 ∧ b ≠ 5#8 ∧ b ≠ 6#8 ∧ b ≠ 7#8 := by bv_omega
    simp [outcomeOf, this]

/-- The bits of a condition that name nothing (R160, R189). -/
def conditionUndefined (c : ConditionBytes) : Prop :=
  1024 ≤ c.states.toNat ∨ 8 ≤ c.kinds.toNat ∨ 4 ≤ c.owners.toNat ∨ 8 ≤ c.qualifiers.toNat

/-- A condition's fields, the outcome apart. -/
def conditionFields (c : ConditionBytes) (o : Option EndOutcome) : Condition :=
  { states := c.states.setWidth 10, kinds := c.kinds.setWidth 3, owners := c.owners.setWidth 2
    pendingOnly := c.qualifiers.getLsbD 0, outcome := o, driftOut := c.qualifiers.getLsbD 1 }

theorem conditionOf_undefined {c : ConditionBytes} (undefined : conditionUndefined c) : conditionOf c = none := if_pos undefined

theorem conditionOf_plain {c : ConditionBytes} (defined : ¬conditionUndefined c) (plain : c.qualifiers.getLsbD 2 = false) :
    conditionOf c = some (conditionFields c none) := by
  refine (if_neg defined).trans ?_
  rw [plain]
  rfl

theorem conditionOf_outcome {c : ConditionBytes} (defined : ¬conditionUndefined c) (named : c.qualifiers.getLsbD 2 = true) :
    conditionOf c = (outcomeOf c.outcome).map fun o => conditionFields c (some o) := by
  refine (if_neg defined).trans ((if_pos named).trans ?_)
  cases outcomeOf c.outcome <;> rfl

theorem conditionOf_eq_none_iff (c : ConditionBytes) :
    conditionOf c = none ↔ conditionUndefined c ∨ c.qualifiers.getLsbD 2 = true ∧ 8 ≤ c.outcome.toNat := by
  by_cases undefined : conditionUndefined c
  · simp [conditionOf_undefined undefined, undefined]
  · cases named : c.qualifiers.getLsbD 2 with
    | false => simp [conditionOf_plain undefined named, undefined]
    | true => simp [conditionOf_outcome undefined named, undefined, outcomeOf_eq_none_iff]

theorem conditionOf_eq_some {c : ConditionBytes} {d : Condition} (spelt : conditionOf c = some d) :
    ¬conditionUndefined c ∧ d = conditionFields c d.outcome ∧ (c.qualifiers.getLsbD 2 = false → d.outcome = none)
      ∧ (c.qualifiers.getLsbD 2 = true → d.outcome.map outcomeCode = some c.outcome) := by
  have defined : ¬conditionUndefined c := fun undefined => Option.some_ne_none d (spelt.symm.trans (conditionOf_undefined undefined))
  cases named : c.qualifiers.getLsbD 2 with
  | false =>
    rw [conditionOf_plain defined named] at spelt
    obtain rfl := Option.some.inj spelt
    exact ⟨defined, rfl, fun _ => rfl, nofun⟩
  | true =>
    rw [conditionOf_outcome defined named] at spelt
    obtain ⟨o, code, rfl⟩ := Option.map_eq_some_iff.mp spelt
    exact ⟨defined, rfl, nofun, fun _ => congrArg some ((Sys2Proof.outcomeOf_eq_some_iff _ o).mp code)⟩

/-- What the fields of a defined condition are worth. -/
theorem conditionFields_toNat {c : ConditionBytes} (defined : ¬conditionUndefined c) (o : Option EndOutcome) :
    (conditionFields c o).states.toNat = c.states.toNat ∧ (conditionFields c o).kinds.toNat = c.kinds.toNat ∧ (conditionFields c o).owners.toNat = c.owners.toNat := by
  simp only [conditionUndefined, not_or, not_le] at defined
  obtain ⟨states, kinds, owners, -⟩ := defined
  simp only [conditionFields, BitVec.toNat_setWidth]
  omega

variable {s}

theorem slotMatches_record {c : Condition} {j : Fin 48} {r : Record} (held : s.recordAt j = some r) :
    s.slotMatches c j = true ↔
      c.states.getLsbD (stateCode (some r.state)).toNat = true ∧ c.kinds.getLsbD (kindCode r.kind).toNat = true
        ∧ c.owners.getLsbD (ownerCode r.owner).toNat = true ∧ (c.pendingOnly = true → r.notices ≠ 0)
        ∧ (∀ o, c.outcome = some o → r.outcome = o) ∧ (c.driftOut = true → r.drift = .outside) := by
  rw [State.slotMatches, held]
  cases pending : c.pendingOnly <;> cases outcome : c.outcome <;> cases drift : c.driftOut <;>
    simp [Condition.matchesRecord, pending, outcome, drift, and_assoc]

theorem slotMatches_vacant {c : Condition} {j : Fin 48} (vacant : s.recordAt j = none) :
    s.slotMatches c j = true ↔ c.states.getLsbD 0 = true ∧ c.pendingOnly = false ∧ c.outcome = none ∧ c.driftOut = false := by
  rw [State.slotMatches, vacant]
  simp [Condition.matchesVacant, and_assoc]

/-! ### The walk (R161) -/

/-- The slot k steps from a slot in a direction. -/
def WalksTo (d : WalkDirection) (i : Fin 48) (k : Nat) (j : Fin 48) : Prop :=
  match d with
  | .up => j.val = i.val + k
  | .down => i.val = j.val + k

/-- The slots from a slot to the end of the table in a direction, itself included. -/
def slotsFrom (d : WalkDirection) (i : Fin 48) : Nat :=
  match d with
  | .up => 48 - i.val
  | .down => i.val + 1

theorem walksTo_zero (d : WalkDirection) (i : Fin 48) : WalksTo d i 0 i := by cases d <;> rfl

theorem slotsFrom_pos (d : WalkDirection) (i : Fin 48) : 1 ≤ slotsFrom d i := by
  cases d <;> simp only [slotsFrom] <;> omega

theorem eq_of_walksTo_zero {d : WalkDirection} {i j : Fin 48} (same : WalksTo d i 0 j) : j = i := by
  cases d
  · exact Fin.ext same
  · exact (Fin.ext same).symm

theorem nextSlot_eq_none {d : WalkDirection} {i : Fin 48} (last : nextSlot d i = none) : slotsFrom d i = 1 := by
  cases d
  · simp only [nextSlot, dite_eq_right_iff, reduceCtorEq, imp_false] at last
    simp only [slotsFrom]
    omega
  · simp only [nextSlot, ite_eq_left_iff, reduceCtorEq, imp_false, not_not] at last
    simp only [slotsFrom]
    omega

theorem nextSlot_eq_some {d : WalkDirection} {i j : Fin 48} (next : nextSlot d i = some j) :
    slotsFrom d i = slotsFrom d j + 1 ∧ ∀ k j', WalksTo d j k j' ↔ WalksTo d i (k + 1) j' := by
  cases d
  · obtain ⟨inside, rfl⟩ : ∃ inside : i.val + 1 < 48, (⟨i.val + 1, inside⟩ : Fin 48) = j := by simpa [nextSlot, Fin.ext_iff] using next
    refine ⟨?_, fun k j' => ?_⟩
    · simp only [slotsFrom]; omega
    · simp only [WalksTo]; omega
  · have above : i.val ≠ 0 := fun zero => Option.some_ne_none j (next.symm.trans (if_pos zero))
    have same : i.val - 1 = j.val := congrArg Fin.val (Option.some.inj ((if_neg above).symm.trans next))
    refine ⟨?_, fun k j' => ?_⟩
    · simp only [slotsFrom]; omega
    · simp only [WalksTo]; omega

/-- A walk that has a slot further on has a next slot. -/
theorem nextSlot_of_walksTo {d : WalkDirection} {i j : Fin 48} {k : Nat} (further : WalksTo d i (k + 1) j) : ∃ i', nextSlot d i = some i' := by
  cases next : nextSlot d i with
  | some i' => exact ⟨i', rfl⟩
  | none =>
    have last := nextSlot_eq_none next
    cases d <;> simp only [slotsFrom, WalksTo] at last further <;> omega

variable {c : Condition} {d : WalkDirection}

theorem scanWalk_onward {n : Nat} {i j : Fin 48} (skips : s.slotMatches c i = false) (more : n ≠ 0) (next : nextSlot d i = some j) :
    scanWalk s c d (n + 1) i = scanWalk s c d n j := by
  rw [scanWalk, if_neg (by simp [skips]), if_neg more, next]

theorem scanWalk_ended {n : Nat} {i : Fin 48} (skips : s.slotMatches c i = false) (more : n ≠ 0) (last : nextSlot d i = none) :
    scanWalk s c d (n + 1) i = { result := .tableEnd, found := none, remaining := n } := by
  rw [scanWalk, if_neg (by simp [skips]), if_neg more, last]

theorem scanWalk_first {j : Fin 48} : ∀ (k n : Nat) (i : Fin 48), k < n → WalksTo d i k j → s.slotMatches c j = true →
    (∀ k' j', k' < k → WalksTo d i k' j' → s.slotMatches c j' = false) →
    scanWalk s c d n i = { result := .found, found := some j, remaining := n - k - 1 }
  | _, 0, _, above, _, _, _ => absurd above (Nat.not_lt_zero _)
  | 0, n + 1, i, _, here, hit, _ => by
    obtain rfl := eq_of_walksTo_zero here
    rw [scanWalk, if_pos hit]
    rfl
  | k + 1, n + 1, i, inside, there, hit, before => by
    obtain ⟨i', next⟩ := nextSlot_of_walksTo there
    have onward := (nextSlot_eq_some next).2
    have skips := before 0 i (Nat.succ_pos k) (walksTo_zero d i)
    rw [scanWalk_onward skips (by omega) next]
    rw [show n + 1 - (k + 1) - 1 = n - k - 1 by omega]
    exact scanWalk_first k n i' (by omega) ((onward k j).mpr there) hit
      fun k' j' below reached => before (k' + 1) j' (by omega) ((onward k' j').mp reached)

theorem scanWalk_exhausted : ∀ (n : Nat) (i : Fin 48), n ≤ slotsFrom d i → (∀ k j, k < n → WalksTo d i k j → s.slotMatches c j = false) →
    scanWalk s c d n i = { result := .none, found := none, remaining := 0 }
  | 0, _, _, _ => rfl
  | n + 1, i, short, silent => by
    have skips := silent 0 i (Nat.succ_pos n) (walksTo_zero d i)
    by_cases more : n = 0
    · rw [scanWalk, if_neg (by simp [skips]), if_pos more]
    · cases next : nextSlot d i with
      | none => have := nextSlot_eq_none next; omega
      | some i' =>
        obtain ⟨left, onward⟩ := nextSlot_eq_some next
        rw [scanWalk_onward skips more next]
        exact scanWalk_exhausted n i' (by omega) fun k j below reached => silent (k + 1) j (by omega) ((onward k j).mp reached)

theorem scanWalk_tableEnd : ∀ (n : Nat) (i : Fin 48), slotsFrom d i < n →
    (∀ k j, k < slotsFrom d i → WalksTo d i k j → s.slotMatches c j = false) →
    scanWalk s c d n i = { result := .tableEnd, found := none, remaining := n - slotsFrom d i }
  | 0, _, long, _ => absurd long (Nat.not_lt_zero _)
  | n + 1, i, long, silent => by
    have one := slotsFrom_pos d i
    have skips := silent 0 i one (walksTo_zero d i)
    cases next : nextSlot d i with
    | none =>
      rw [scanWalk_ended skips (by have := nextSlot_eq_none next; omega) next, nextSlot_eq_none next]
      rfl
    | some i' =>
      obtain ⟨left, onward⟩ := nextSlot_eq_some next
      rw [scanWalk_onward skips (by omega) next, left, show n + 1 - (slotsFrom d i' + 1) = n - slotsFrom d i' by omega]
      exact scanWalk_tableEnd n i' (by omega) fun k j below reached => silent (k + 1) j (by omega) ((onward k j).mp reached)

theorem scanWalk_atRise (i : Instr) (n : Nat) (j : Fin 48) : scanWalk (s.atRise i) c d n j = scanWalk s c d n j := by
  induction n generalizing j with
  | zero => rfl
  | succ n ih =>
    have same : (s.atRise i).slotMatches c j = s.slotMatches c j := rfl
    simp only [scanWalk, same, ih]

/-! ### The operands of SCAN and SWEEP (R161, R164) -/

theorem slotOf_eq_some_iff {b : Byte} {i : Fin 48} : slotOf b = some i ↔ i.val = b.toNat := by
  refine ⟨fun named => ?_, slotOf_eq_some⟩
  rw [slotOf] at named
  split at named
  · obtain rfl := Option.some.inj named
    rfl
  · cases named

theorem toNat_le_of_walkOf {b : Byte} {x : WalkDirection} (spelt : walkOf b = some x) : b.toNat ≤ 1 := by
  rw [← (Sys2Proof.walkOf_eq_some_iff b x).mp spelt]
  cases x <;> decide

theorem toNat_le_of_actionOf {b : Byte} {x : SweepAction} (spelt : actionOf b = some x) : b.toNat ≤ 4 := by
  rw [← (Sys2Proof.actionOf_eq_some_iff b x).mp spelt]
  cases x <;> decide

variable {start direction count action : Byte} {cond : ConditionBytes}

theorem takeScan_range (outside : 47 < start.toNat ∨ 48 < count.toNat ∨ 1 < direction.toNat ∨ conditionOf cond = none) :
    takeScan start direction count cond s = (s, noPayload .range) := by
  unfold takeScan
  split
  · rename_i i x c named walk spelt
    have slot := slotOf_eq_some_iff.mp named
    have small := toNat_le_of_walkOf walk
    have long : 48 < count.toNat := by
      rcases outside with above | long | above | undefined
      · omega
      · exact long
      · omega
      · exact absurd (undefined.symm.trans spelt) nofun
    rw [if_pos long, bare_eq]
  · rfl

theorem takeScan_inRange {i : Fin 48} (named : slotOf start = some i) (walk : walkOf direction = some d) (spelt : conditionOf cond = some c)
    (short : count.toNat ≤ 48) :
    takeScan start direction count cond s = (s, okPayload (s.scanPayload (scanWalk s c d count.toNat i))) := by
  rw [takeScan, named, walk, spelt]
  exact if_neg (by omega)

theorem takeSweep_range (outside : 47 < start.toNat ∨ 48 < count.toNat ∨ 1 < direction.toNat ∨ 4 < action.toNat ∨ conditionOf cond = none) :
    takeSweep start direction count cond action s = (s, noPayload .range) := by
  unfold takeSweep
  split
  · rename_i i x c a named walk spelt acts
    have slot := slotOf_eq_some_iff.mp named
    have small := toNat_le_of_walkOf walk
    have known := toNat_le_of_actionOf acts
    have long : 48 < count.toNat := by
      rcases outside with above | long | above | above | undefined
      · omega
      · exact long
      · omega
      · omega
      · exact absurd (undefined.symm.trans spelt) nofun
    rw [if_pos long, bare_eq]
  · rfl

theorem takeSweep_inRange {i : Fin 48} {a : SweepAction} (named : slotOf start = some i) (walk : walkOf direction = some d)
    (spelt : conditionOf cond = some c) (acts : actionOf action = some a) (short : count.toNat ≤ 48) :
    takeSweep start direction count cond action s =
      if s.sweep.inFlight.isSome = true then (s, noPayload .busy) else (s.startSweep i d count.toNat c a, noPayload .ok) := by
  rw [takeSweep, named, walk, spelt, acts]
  exact if_neg (by omega)

theorem startSweep_pos {a : SweepAction} {n : Nat} (i : Fin 48) (more : n ≠ 0) :
    let begun : Sweep := { condition := c, action := a, direction := d, next := i, remaining := n, acted := 0, skipped := 0 }
    s.startSweep i d n c a = s.setSweep { s.sweep with inFlight := some begun } := if_neg more

theorem takeSweepStop_flying {sw : Sweep} (flying : s.sweep.inFlight = some sw) :
    takeSweepStop s = (s.writeResult .stopped sw.action sw.acted sw.skipped, okPayload s.sweep.statusBytes) := by
  rw [takeSweepStop, flying]
  rfl

theorem takeSweepStop_idle (idle : s.sweep.inFlight = none) :
    takeSweepStop s = (s, { status := .already, payload := s.sweep.statusBytes }) := by
  rw [takeSweepStop, idle]
  rfl

/-! ### Frames that only the port sees (R122, R124) -/

theorem takeFrame_counted {f : Frame} (unseen : ¬FrameGood f ∨ s.arbiter.grant = none ∨ s.arbiter.runMode = .parked) :
    s.takeFrame f = s.countFrame f := by
  have blocked : ¬(Frame.passes f = true ∧ (s.countFrame f).arbiter.grant.isSome = true ∧ (s.countFrame f).arbiter.runMode = .running) := by
    rintro ⟨passed, granted, running⟩
    rw [(countFrame_fields s f).2.2.2.2.1] at granted running
    rcases unseen with bad | free | parked
    · exact bad ((passes_iff f).mp passed)
    · exact absurd granted (by simp [free])
    · exact absurd (parked.symm.trans running) nofun
  rw [State.takeFrame, if_neg blocked]

theorem exec_frame_counted {f : Frame} (up : s.resetnLow = false) (calm : s.scheduler.passWanted = false)
    (unseen : ¬FrameGood f ∨ s.arbiter.grant = none ∨ s.arbiter.runMode = .parked) :
    exec (.detectorFrame f) s = .next (sentNothing (s.countFrame f)) := by
  have taken : s.quiet.takeFrame f = (s.countFrame f).quiet := (takeFrame_counted (s := s.quiet) unseen).trans (countFrame_quiet s f)
  rw [exec_detectorFrame, ownEvent_high s _ up, taken]
  exact congrArg _ (settle_calm _ calm (le_refl _))

end Sys2Proof.Machine

open Sys2Proof Sys2Proof.Machine

/-- Settles O33: which conditions the bytes spell, when a slot matches, and the walk's three ends: by induction on the count. -/
theorem scanFindsFirstMatch : Obligations.ScanFindsFirstMatch := by
  intro s start direction count cond up i
  refine ⟨(conditionOf_eq_none_iff cond).trans (by simp only [conditionUndefined, or_assoc]), fun c spelt => ?_,
    fun c j => ⟨fun r held => slotMatches_record held, fun vacant => slotMatches_vacant vacant⟩,
    fun outside => station_answers (take := takeScan start direction count cond) up (takeScan_range outside), ?_⟩
  · obtain ⟨defined, fields, plain, named⟩ := conditionOf_eq_some spelt
    obtain ⟨states, kinds, owners⟩ := conditionFields_toNat defined c.outcome
    rw [← fields] at states kinds owners
    exact ⟨states, kinds, owners, congrArg Condition.pendingOnly fields, congrArg Condition.driftOut fields, plain, named⟩
  · intro c first upward slot short spelledDirection spelt reaches slots
    obtain ⟨d, walk, reach, left⟩ : ∃ d, walkOf direction = some d ∧ (∀ k j, WalksTo d first k j ↔ reaches k j) ∧ slotsFrom d first = slots := by
      rw [spelledDirection]
      cases upward
      · exact ⟨.down, rfl, fun _ _ => Iff.rfl, rfl⟩
      · exact ⟨.up, rfl, fun _ _ => Iff.rfl, rfl⟩
    have answer {a : ScanAnswer} (walked : scanWalk s c d count.toNat first = a) :
        exec i s = .next (answeredBy s i (okPayload (s.scanPayload a)) s) := by
      refine station_answers (take := takeScan start direction count cond) up ((takeScan_inRange (slotOf_eq_some slot) walk spelt short).trans ?_)
      rw [scanWalk_atRise, walked]
      rfl
    refine ⟨fun k j inside there hit before => answer (scanWalk_first k _ first inside ((reach k j).mpr there) hit
        fun k' j' below reached => before k' j' below ((reach k' j').mp reached)),
      fun fits silent => answer (scanWalk_exhausted _ first (by omega) fun k j below reached => silent k j below ((reach k j).mp reached)),
      fun long silent => (answer (scanWalk_tableEnd _ first (by omega) fun k j below reached =>
        silent k j (by omega) ((reach k j).mp reached))).trans (by rw [left]; rfl)⟩

/-- Settles O38: RANGE, then BUSY, then the start; SWEEP-STOP answers the items that stood and ends a sweep in flight. -/
theorem sweepStartsAndStops : Obligations.SweepStartsAndStops := by
  intro s start direction count action cond up i
  refine ⟨fun outside => station_answers (take := takeSweep start direction count cond action) up (takeSweep_range outside),
    fun first d c a named short walk spelt acts => ?_, s.sweep.statusBytes, sweepItems_statusBytes _, fun sw flying => ?_, fun idle => ?_⟩
  · have judged := takeSweep_inRange (s := s.atRise i) named walk spelt acts short
    refine ⟨fun flying => station_answers (take := takeSweep start direction count cond action) up (judged.trans (if_pos flying)),
      fun idle zero => ?_, fun idle more => ?_⟩
    all_goals
      have free : ¬(s.atRise i).sweep.inFlight.isSome = true := by
        rw [show (s.atRise i).sweep = s.sweep from rfl, idle]
        exact Bool.false_ne_true
      refine station_leaves (take := takeSweep start direction count cond action) up (judged.trans (if_neg free)) ?_
    · subst zero
      rfl
    · rw [startSweep_pos first fun zero => more (BitVec.eq_of_toNat_eq zero)]
      rfl
  · exact station_leaves (take := takeSweepStop) up (takeSweepStop_flying (s := s.atRise _) flying) rfl
  · exact station_answers (take := takeSweepStop) up (takeSweepStop_idle (s := s.atRise _) idle)

/-- Settles O41: the gap and the frame's own reject are counted together, and a frame that is not taken goes no further. -/
theorem framesAreCounted : Obligations.FramesAreCounted := by
  intro s f up calm
  refine ⟨frameGap s.ports.expectedFrame f, if Frame.passes f then 0 else 1, fun e expected agrees => ?_, fun untrusted => ?_, fun good => ?_,
    fun bad => ?_, rfl, exec_frame_counted up calm⟩
  · simp only [frameGap, expected, if_pos agrees]
  · rcases untrusted with absent | wrong
    · simp only [frameGap, absent]
    · cases expected : s.ports.expectedFrame <;> simp [frameGap, wrong]
  · exact if_pos ((passes_iff f).mpr good)
  · exact if_neg (mt (passes_iff f).mp bad)

end


section
/-! What the RESET command leaves, block by block (R25, R102, R117, R137, R156, R174, R185). -/

namespace Sys2Proof.Machine

variable (s : State)

/-! ### The end of a pursuit -/

/-- The end of a pursuit writes the context, the outstanding range request and the lock latch of its target, and nothing else of the part. -/
theorem endPursuit_fields (b : Bool) :
    (s.endPursuit b).arbiter = s.arbiter ∧ (s.endPursuit b).scheduler = s.scheduler ∧ (s.endPursuit b).notices = s.notices
      ∧ { (s.endPursuit b).ports with outstanding := none } = { s.ports with outstanding := none } := by
  unfold State.endPursuit
  split
  · exact ⟨rfl, rfl, rfl, rfl⟩
  · split
    · simp
    · exact ⟨rfl, rfl, rfl, rfl⟩

theorem afterReset_latch (v : Slot) (i : Fin 48) :
    Slot.afterReset i { v with record := v.record.map fun r => { r with lockLatch := false } } = Slot.afterReset i v := by
  rcases v with ⟨generation, _ | r⟩
  · rfl
  · rfl

/-- A RESET of a slot does not look at the latch that the end of the pursuit clears. -/
theorem afterReset_endPursuit (b : Bool) (i : Fin 48) : Slot.afterReset i ((s.endPursuit b).slotAt i) = Slot.afterReset i (s.slotAt i) := by
  unfold State.endPursuit
  split
  · rfl
  · split
    · rw [slotAt_modifyRecord]
      split
      · rename_i c _ _ _
        exact afterReset_latch ((s.setContext none).withdrawRange.slotAt i) i
      · rfl
    · rfl

/-! ### The RESET command -/

theorem driveHome_fields :
    s.driveHome.table = s.table ∧ s.driveHome.classes = s.classes ∧ s.driveHome.pursuit = s.pursuit ∧ s.driveHome.arbiter = s.arbiter
      ∧ s.driveHome.scheduler = s.scheduler ∧ s.driveHome.time = s.time ∧ s.driveHome.pendant = s.pendant ∧ s.driveHome.notices = s.notices
      ∧ s.driveHome.sweep = s.sweep := by
  unfold State.driveHome
  split <;> exact ⟨rfl, rfl, rfl, rfl, rfl, rfl, rfl, rfl, rfl⟩

/-- The part as the RESET command has cleared it, before its drive request. -/
def State.resetting (s : State) : State := ((s.endPursuit true).setContext none).cleared

theorem takeReset_resetting : s.takeReset = s.resetting.driveHome := takeReset_eq s

theorem slotAt_resetting (i : Fin 48) : s.resetting.slotAt i = Slot.afterReset i (s.slotAt i) := by
  rw [State.resetting, slotAt_cleared]
  exact afterReset_endPursuit s true i

theorem resetting_fields :
    s.resetting.classes = s.classes ∧ s.resetting.pursuit = none ∧ s.resetting.arbiter = s.arbiter.afterReset
      ∧ s.resetting.scheduler = { entries := [], frozen := true, passWanted := false } ∧ s.resetting.time = s.time
      ∧ s.resetting.pendant = s.pendant ∧ s.resetting.notices = s.notices.afterReset ∧ s.resetting.sweep = s.sweep.afterReset
      ∧ s.resetting.table.stationWindow = s.table.stationWindow ∧ s.resetting.table.pendantWindow = s.table.pendantWindow
      ∧ s.resetting.ports = { s.ports with outstanding := none } := by
  have setup := (endPursuit_setup s true).trans (setContext_setup _ none)
  obtain ⟨arbiter, -, notices, ports⟩ := endPursuit_fields s true
  rw [State.resetting]
  refine ⟨?_, ?_, ?_, ?_, ?_, ?_, ?_, ?_, ?_, ?_, ?_⟩
  · exact setup.classes
  · rfl
  · exact congrArg Arbiter.afterReset arbiter
  · rfl
  · exact setup.time
  · exact setup.pendant
  · exact congrArg NoticeUnit.afterReset notices
  · exact congrArg SweepUnit.afterReset setup.sweep
  · rw [cleared_table, Table.afterReset_stationWindow]; exact setup.stationWindow
  · rw [cleared_table, Table.afterReset_pendantWindow]; exact setup.pendantWindow
  · exact ports

theorem reference_resetting : (s.resetting.recordAt 0).bind (·.reference) = (s.recordAt 0).bind (·.reference) := by
  rw [State.recordAt, slotAt_resetting, Slot.afterReset]
  cases held : (s.slotAt 0).record with
  | none => simp [State.recordAt, held]
  | some r => simp [State.recordAt, held, Record.afterReset]

theorem slotAt_takeReset (i : Fin 48) : s.takeReset.slotAt i = Slot.afterReset i (s.slotAt i) := by
  rw [takeReset_resetting, State.slotAt, (driveHome_fields _).1]
  exact slotAt_resetting s i

theorem sendMove_ports (d : Direction) :
    (s.sendMove d).ports = { s.ports with
      latestMoveTag := some s.ports.nextMoveTag, nextMoveTag := s.ports.nextMoveTag + 1
      driveOut := s.ports.driveOut ++ [.move d s.ports.nextMoveTag] } := rfl

theorem sendHalt_ports : s.sendHalt.ports = { s.ports with latestMoveTag := none, driveOut := s.ports.driveOut ++ [.halt] } := rfl

theorem takeReset_move {ref : Reference} (home : (s.recordAt 0).bind (·.reference) = some ref) :
    s.takeReset.ports = { s.ports with
      outstanding := none, latestMoveTag := some s.ports.nextMoveTag, nextMoveTag := s.ports.nextMoveTag + 1
      driveOut := s.ports.driveOut ++ [.move ref.direction s.ports.nextMoveTag] } := by
  obtain ⟨-, -, -, -, -, -, -, -, -, -, ports⟩ := resetting_fields s
  rw [takeReset_resetting, State.driveHome, reference_resetting, home]
  refine (sendMove_ports _ _).trans ?_
  rw [ports]

theorem takeReset_halt (home : (s.recordAt 0).bind (·.reference) = none) :
    s.takeReset.ports = { s.ports with outstanding := none, latestMoveTag := none, driveOut := s.ports.driveOut ++ [.halt] } := by
  obtain ⟨-, -, -, -, -, -, -, -, -, -, ports⟩ := resetting_fields s
  rw [takeReset_resetting, State.driveHome, reference_resetting, home]
  refine (sendHalt_ports _).trans ?_
  rw [ports]

end Sys2Proof.Machine

open Sys2Proof Sys2Proof.Machine

/-- Settles O40: the slots are reset one by one, each unit as its chapter says, and the drive request is chosen by HOME's reference. -/
theorem resetKeepsSetup : Obligations.ResetKeepsSetup := by
  intro s up home
  obtain ⟨table, classes, pursuit, arbiter, scheduler, time, pendant, notices, sweep⟩ := driveHome_fields (s.atRise .reset).resetting
  obtain ⟨classes', pursuit', arbiter', scheduler', time', pendant', notices', sweep', station, window, -⟩ := resetting_fields (s.atRise .reset)
  have ran := exec_reset_high up
  have reset (j : Fin 48) : (s.atRise .reset).takeReset.slotAt j = Slot.afterReset j (s.slotAt j) := slotAt_takeReset (s.atRise .reset) j
  have moves (ref : Reference) (present : home = some ref) := takeReset_move (s.atRise .reset) (ref := ref) present
  have halts (absent : home = none) := takeReset_halt (s.atRise .reset) absent
  rw [← takeReset_resetting] at table classes pursuit arbiter scheduler time pendant notices sweep
  generalize (s.atRise .reset).takeReset = w at ran reset moves halts table classes pursuit arbiter scheduler time pendant notices sweep
  have slots (j : Fin 48) : (w.respond (noPayload .ok)).slotAt j = Slot.afterReset j (s.slotAt j) := reset j
  refine ⟨_, ran, ⟨rfl, rfl⟩, fun j r ne held => ?_, fun j ne vacant => ?_, ?_, fun r held => ?_,
    (congrArg Table.stationWindow table).trans station, (congrArg Table.pendantWindow table).trans window, classes.trans classes',
    pursuit.trans pursuit', arbiter.trans arbiter', scheduler.trans scheduler', moves,
    halts, time.trans time', pendant.trans pendant', notices.trans notices', fun sw flying => ?_,
    fun idle => ?_⟩
  · rw [slots, Slot.afterReset, show (s.slotAt j).record = some r from held]
    exact if_neg ne
  · rw [slots, Slot.afterReset, show (s.slotAt j).record = none from vacant]
  · rw [slots, Slot.afterReset]
    split <;> rfl
  · rw [State.recordAt, slots, Slot.afterReset, show (s.slotAt 0).record = some r from held]
    rfl
  · refine (sweep.trans sweep').trans ?_
    rw [SweepUnit.afterReset, show (s.atRise .reset).sweep = s.sweep from rfl, flying]
  · refine (sweep.trans sweep').trans ?_
    rw [SweepUnit.afterReset, show (s.atRise .reset).sweep = s.sweep from rfl, idle]

end


section
/-! Frames at the pursuit unit, stage by stage (R41 to R45, R49, R51, R53, R56, R58, R59, R66, R71): the state that each leaves, of a part at which the
event has sent nothing yet. -/

namespace Sys2Proof.Machine

variable {s : State} {g : Request} {c : Context} {r : Record} {f : Frame}

/-! ### Deliveries to a live record -/

theorem setRecordNotice_live {h : Handle} (k : RecordNotice) (live : s.live h = some r) :
    s.setRecordNotice k h = (s.withRecord h { r with notices := r.notices ||| recordBit k }).judgeLine := by
  rw [State.setRecordNotice, modifyRecord_live _ _ live]

/-- A record changed and then noted: one record written, and the line judged. -/
theorem setRecordNotice_withRecord (h : Handle) (x : Record) (k : RecordNotice) :
    (s.withRecord h x).setRecordNotice k h = (s.withRecord h { x with notices := x.notices ||| recordBit k }).judgeLine := by
  rw [setRecordNotice_live k (live_withRecord s h x), withRecord_withRecord]

theorem countFalseReturn_quiet (s : State) :
    s.quiet.countFalseReturn =
      let noted := if s.notices.falseReturns = 0 then s.setDeviceNotice .falseReturn else s
      sentNothing { noted with notices := { noted.notices with falseReturns := min 65535 (s.notices.falseReturns + 1) } } := by
  have same : s.quiet.notices.falseReturns = s.notices.falseReturns := rfl
  by_cases zero : s.notices.falseReturns = 0
  · simp only [State.countFalseReturn, same, if_pos zero]
    rfl
  · simp only [State.countFalseReturn, same, if_neg zero]
    rfl

/-! ### Verdicts (R41, R42, R43) -/

theorem verdict_none {slot : Fin 48} {inside : Bool} (dark : f.intensity < s.classes[r.cls.val].minIntensity) :
    s.verdict slot r inside f = .none := by
  have silent : s.hasReturn r f = false := decide_eq_false (Nat.not_le.mpr dark)
  simp [State.verdict, silent]

theorem verdict_false {slot : Fin 48} {inside : Bool} (returned : s.classes[r.cls.val].minIntensity ≤ f.intensity) (outside : inside = false) :
    s.verdict slot r inside f = .falseReturn := by
  simp [State.verdict, (hasReturn_iff f).mpr returned, outside]

theorem verdict_ambiguity {slot : Fin 48} {inside : Bool} (returned : s.classes[r.cls.val].minIntensity ≤ f.intensity) (within : inside = true)
    (near : ∃ j, j ≠ slot ∧ InWindowOf s (returnDirection f) j) : s.verdict slot r inside f = .ambiguity := by
  simp [State.verdict, (hasReturn_iff f).mpr returned, within, (nearSlotOf_isSome s slot _).mpr near]

theorem verdict_capture {slot : Fin 48} {inside : Bool} (returned : s.classes[r.cls.val].minIntensity ≤ f.intensity) (within : inside = true)
    (alone : ¬∃ j, j ≠ slot ∧ InWindowOf s (returnDirection f) j) : s.verdict slot r inside f = .capture := by
  have free := mt (nearSlotOf_isSome s slot (returnDirection f)).mp alone
  simp [State.verdict, (hasReturn_iff f).mpr returned, within, free]

/-- The window test of SLEWING, COASTING and SEARCHING (R41). -/
def State.hunts (s : State) (c : Context) (r : Record) (centre : Direction) (f : Frame) : Bool :=
  if c.stage = .searching then s.insideOnBeam r f else s.insideOn r centre f

theorem hunts_iff (centre : Direction) :
    s.hunts c r centre f = true ↔
      let window := if r.params.window = 0 then s.classes[r.cls.val].captureRadius else r.params.window
      if c.stage = .searching then f.spotX.natAbs ≤ window ∧ f.spotY.natAbs ≤ window
      else (azimuthDifference (returnDirection f) centre).natAbs ≤ window ∧ (elevationDifference (returnDirection f) centre).natAbs ≤ window := by
  rw [State.hunts]
  split
  · exact insideOnBeam_iff s r f
  · simp only [State.insideOn, insideWindow, withinSquare, Bool.and_eq_true, decide_eq_true_iff]
    rfl

theorem Pursuing.targetPrediction (serves : Pursuing s g c r) {p : Direction} (predicted : r.prediction g.aim s.time.count = some p) :
    s.targetPrediction c r = p := by
  have aim : s.grantAim = g.aim := by rw [State.grantAim, serves.grant]; rfl
  rw [State.targetPrediction, aim]
  exact congrArg (·.getD c.aimDirection) predicted

/-- The stages in which the beam hunts its record: a centre stands, or the window follows the beam. -/
def Hunting (s : State) (g : Request) (c : Context) (r : Record) (centre : Direction) : Prop :=
  (c.stage = .slewing ∨ c.stage = .coasting) ∧ r.prediction g.aim s.time.count = some centre ∨ c.stage = .searching

/-- What hunting makes of a frame, by the verdict on it (R43, R49, R66, R71). -/
theorem Pursuing.pursuitFrame_hunting (serves : Pursuing s g c r) {centre : Direction} (hunting : Hunting s g c r centre) {v : Verdict}
    (judged : s.verdict c.target.slot r (s.hunts c r centre f) f = v) :
    s.pursuitFrame f =
      if v = .capture then s.capture c f
      else if c.stage = .coasting then (s.deliverVerdict c.target v).sendFollow centre else s.deliverVerdict c.target v := by
  rcases hunting with ⟨slewing | coasting, predicted⟩ | searching
  · simp only [State.hunts, slewing, reduceCtorEq, if_false] at judged ⊢
    simp only [State.pursuitFrame, serves.context, serves.record, slewing, serves.targetPrediction predicted, State.huntingFrame, judged]
    cases v <;> rfl
  · simp only [State.hunts, coasting, reduceCtorEq, if_false] at judged ⊢
    simp only [State.pursuitFrame, serves.context, serves.record, coasting, State.coastingFrame, serves.targetPrediction predicted, judged]
    cases v <;> rfl
  · simp only [State.hunts, searching, reduceCtorEq, if_true, if_false] at judged ⊢
    simp only [State.pursuitFrame, serves.context, serves.record, searching, State.huntingFrame, judged]
    cases v <;> rfl

/-- What a verdict that is no capture leaves of an event that has delivered t: in COASTING the beam follows the prediction (R66). -/
def huntLeaves (c : Context) (centre : Direction) (t : State) : State := if c.stage = .coasting then sentDrive t (.follow centre) else sentNothing t

theorem Pursuing.hunting_delivers (serves : Pursuing s g c r) {centre : Direction} (hunting : Hunting s g c r centre) {v : Verdict} {t : State}
    (judged : s.quiet.verdict c.target.slot r (s.quiet.hunts c r centre f) f = v) (kept : v ≠ .capture)
    (delivered : s.quiet.deliverVerdict c.target v = sentNothing t) : s.quiet.pursuitFrame f = huntLeaves c centre t := by
  rw [serves.quiet.pursuitFrame_hunting hunting judged, if_neg kept, delivered]
  rfl

theorem capture_quiet (live : s.live c.target = some r) :
    s.quiet.capture c f =
      sentDrive { s.withRecord c.target { r with state := .active .centring } with
        pursuit := some { c with
          stage := .centring, lastCaptured := some (returnDirection f), latestIntensity := some f.intensity, centredCount := 0
          moveInFlight := false, coastDeadline := none, search := none } } (.follow (returnDirection f)) := by
  rw [State.capture]
  dsimp only
  rw [setStage_live (r := r)]
  · rfl
  · exact live

/-! ### Frames in CENTRING and RANGING (R44, R51, R53, R56) -/

theorem captured_eq {captured : Direction} (last : c.lastCaptured = some captured) : c.captured = captured := by
  rw [Context.captured, last, Option.getD_some]

theorem centring_inside {captured : Direction} (returned : s.classes[r.cls.val].minIntensity ≤ f.intensity)
    (within : insideWindow (returnDirection f) captured (s.effectiveWindow r) = true) :
    s.centring r captured f = if spotWithin f (s.classOf r).centreRadius then .centred else .offCentre := by
  simp [State.centring, (hasReturn_iff f).mpr returned, within]

theorem insideWindow_iff (d centre : Direction) (w : Nat) :
    insideWindow d centre w = true ↔ (azimuthDifference d centre).natAbs ≤ w ∧ (elevationDifference d centre).natAbs ≤ w := by
  simp [insideWindow, withinSquare]

theorem spotWithin_iff (radius : Nat) : spotWithin f radius = true ↔ f.spotX * f.spotX + f.spotY * f.spotY ≤ (radius : Int) * radius := by
  simp [spotWithin]

theorem Pursuing.pursuitFrame_offCentre (serves : Pursuing s g c r) (stage : c.stage = .centring) {captured : Direction}
    (last : c.lastCaptured = some captured) (judged : s.centring r captured f = .offCentre) :
    s.pursuitFrame f = (s.setContext (some { c.follow f with centredCount := 0 })).sendFollow (returnDirection f) := by
  rw [serves.pursuitFrame_centring stage, State.centringFrame, captured_eq last, judged]

theorem Pursuing.pursuitFrame_centred (serves : Pursuing s g c r) (stage : c.stage = .centring) {captured : Direction}
    (last : c.lastCaptured = some captured) (judged : s.centring r captured f = .centred) :
    s.pursuitFrame f =
      let followed : Context := { c.follow f with centredCount := c.centredCount + 1 }
      if 3 ≤ c.centredCount + 1 then (s.sendFollow (returnDirection f)).enterRanging followed
      else (s.sendFollow (returnDirection f)).setContext (some followed) := by
  rw [serves.pursuitFrame_centring stage, State.centringFrame, captured_eq last, judged]

/-- The frame followed, and the RANGE request that makes the record RANGING. -/
theorem enterRanging_quiet (d : Direction) (live : s.live c.target = some r) :
    (s.quiet.sendFollow d).enterRanging c =
      let t := rangeAsked { s.withRecord c.target { r with state := .active .ranging } with
        pursuit := some { c with stage := .ranging, readings := 0, heldReading := none, rangeInFlight := true } }
      { t with ports := { t.ports with driveOut := [.follow d] } } := by
  have live' : (s.quiet.sendFollow d).live c.target = some r := live
  rw [State.enterRanging, State.setRecordState, modifyRecord_live _ _ live']
  rfl

theorem Pursuing.pursuitFrame_ranging (serves : Pursuing s g c r) (stage : c.stage = .ranging) : s.pursuitFrame f = s.rangingFrame c r f := by
  simp only [State.pursuitFrame, serves.context, serves.record, stage]

/-! ### Frames in LOCKED (R45, R58, R59) -/

theorem Pursuing.pursuitFrame_locked (serves : Pursuing s g c r) (stage : c.stage = .locked) : s.pursuitFrame f = s.lockedFrame c r f := by
  simp only [State.pursuitFrame, serves.context, serves.record, stage]

theorem nearSlotOf_eq_none {target : Fin 48} {d : Direction} (alone : ∀ j, j ≠ target → ¬InWindowOf s d j) : s.nearSlotOf target d = none := by
  refine Option.not_isSome_iff_eq_none.mp (mt (nearSlotOf_isSome s target d).mp ?_)
  rintro ⟨j, other, inside⟩
  exact alone j other inside

theorem nearSlotOf_eq_some {target j : Fin 48} {d : Direction} (other : j ≠ target) (inside : InWindowOf s d j)
    (below : ∀ k, k < j → k ≠ target → ¬InWindowOf s d k) : s.nearSlotOf target d = some j := by
  refine find_allSlots ?_ fun k lower => ?_
  · simp [other, (insideZone_iff s d j).mpr inside]
  · simp only [Bool.and_eq_false_iff, decide_eq_false_iff_not, not_not]
    by_cases same : k = target
    · exact .inl same
    · exact .inr (Bool.not_eq_true _ ▸ mt (insideZone_iff s d k).mp (below k lower same))

theorem lockedFrame_follows {near : Option (Fin 48)} (returned : s.classes[r.cls.val].minIntensity ≤ f.intensity)
    (found : s.nearSlotOf c.target.slot (returnDirection f) = near) :
    s.lockedFrame c r f =
      ((if near.isSome = true ∧ near ≠ c.nearSlot then s.setRecordNotice .ambig c.target else s).setContext
        (some { c.follow f with nearSlot := near })).sendFollow (returnDirection f) := by
  rw [State.lockedFrame, if_pos ((hasReturn_iff f).mpr returned), found]

theorem breakLock_live (live : s.live c.target = some r) :
    s.breakLock c r =
      (((s.withdrawRange.setContext (some { c with
          stage := .coasting, rangeInFlight := false, coastDeadline := some (s.now + timeOfMs r.params.coastTime), fixWait := none
          nearSlot := none })).withRecord c.target
        { r with state := .active .coasting, breaks := satAdd 255 r.breaks 1, lockLatch := false, notices := r.notices ||| recordBit .break })).judgeLine := by
  rw [State.breakLock]
  dsimp only
  rw [setStage_live (r := r), modifyRecord_live _ _ (live_withRecord _ _ _), withRecord_withRecord, setRecordNotice_withRecord]
  exact live

end Sys2Proof.Machine

open Sys2Proof Sys2Proof.Machine

/-- Settles O42: the verdict on the frame, and for each verdict what the matcher delivers and what the stage sends. -/
theorem huntingFramesAreJudged : Obligations.HuntingFramesAreJudged := by
  intro s f g c r centre serves good hunting back cls window inside elsewhere u after
  have counted : Pursuing u g c r := serves.countFrame f
  have hunted : Hunting u g c r centre := hunting
  have test : u.quiet.hunts c r centre f = true ↔ inside := hunts_iff centre
  have delivers {v : Verdict} {t : State} (judged : u.quiet.verdict c.target.slot r (u.quiet.hunts c r centre f) f = v) (kept : v ≠ .capture)
      (delivered : u.quiet.deliverVerdict c.target v = sentNothing t) (calm : t.scheduler = s.scheduler) (queued : t.arbiter = s.arbiter) :
      exec (.detectorFrame f) s = .next (after t) := by
    have left : huntLeaves c centre t = after t := rfl
    refine serves.exec_frame good ((counted.hunting_delivers hunted judged kept delivered).trans left) ?_ ?_ <;>
      rw [← left, huntLeaves] <;> split
    · exact calm
    · exact calm
    · exact congrArg Arbiter.queue queued
    · exact congrArg Arbiter.queue queued
  refine ⟨fun dark => delivers (verdict_none dark) nofun rfl rfl rfl, fun returned outside => ?_, fun returned within near => ?_,
    fun returned within alone => ?_⟩
  · have judged := verdict_false (slot := c.target.slot) (s := u.quiet) returned (Bool.not_eq_true _ ▸ mt test.mp outside)
    refine delivers judged nofun (countFalseReturn_quiet u) ?_ ?_
    · split <;> rfl
    · split <;> rfl
  · refine delivers (verdict_ambiguity (s := u.quiet) returned (test.mpr within) near) nofun ?_ rfl rfl
    rw [State.deliverVerdict, modifyRecord_live (s := u.quiet) (r := r) _ counted.record, setRecordNotice_withRecord]
    rfl
  · have judged := verdict_capture (s := u.quiet) returned (test.mpr within) alone
    exact serves.exec_frame good ((counted.quiet.pursuitFrame_hunting hunted judged).trans
      ((if_pos rfl).trans (capture_quiet counted.record))) rfl rfl

/-- Settles O44: the judgement of the centring frame, its count, and the third's RANGE request; a frame in RANGING is followed or starts a search. -/
theorem centringCountsAndRangingFollows : Obligations.CentringCountsAndRangingFollows := by
  intro s f g c r captured serves good last back cls window inside centred u followed
  have counted : Pursuing u g c r := serves.countFrame f
  refine ⟨fun stage returned within => ?_, fun stage => ⟨fun returned => ?_, fun dark => ?_⟩⟩
  · have judged := centring_inside (s := u.quiet) (r := r) returned ((insideWindow_iff _ captured _).mpr within)
    have spot := spotWithin_iff (f := f) cls.centreRadius
    refine ⟨fun off => ?_, fun near few => ?_, fun near two => ?_⟩
    · exact serves.exec_frame good (counted.quiet.pursuitFrame_offCentre stage last (judged.trans (if_neg (mt spot.mp off)))) rfl rfl
    · have framed := counted.quiet.pursuitFrame_centred stage last (judged.trans (if_pos (spot.mpr near)))
      exact serves.exec_frame good (framed.trans (if_neg (by omega))) rfl rfl
    · have framed := counted.quiet.pursuitFrame_centred stage last (judged.trans (if_pos (spot.mpr near)))
      rw [two] at framed
      exact serves.exec_frame good (framed.trans ((if_pos (le_refl 3)).trans (enterRanging_quiet (r := r) back counted.record))) rfl rfl
  · refine serves.exec_frame good ((counted.quiet.pursuitFrame_ranging stage).trans (if_pos ((hasReturn_iff (s := u.quiet) f).mpr returned))) rfl rfl
  · refine serves.exec_frame good ((counted.quiet.pursuitFrame_ranging stage).trans ((if_neg (mt (hasReturn_iff (s := u.quiet) f).mp
      (Nat.not_le.mpr dark))).trans ?_)) rfl rfl
    rw [captured_eq last]
    exact startSearch_quiet captured counted.record

/-- Settles O45: a return is followed with its near slot, which is noted when it is another slot than before; no return breaks the lock. -/
theorem lockedFramesFollowOrBreak : Obligations.LockedFramesFollowOrBreak := by
  intro s f g c r serves good stage back cls u followed
  have counted : Pursuing u g c r := serves.countFrame f
  have locked := counted.quiet.pursuitFrame_locked (f := f) stage
  refine ⟨fun returned alone => ?_, fun j returned other inside below => ?_, fun dark => ?_⟩
  · refine serves.exec_frame good (locked.trans ((lockedFrame_follows (s := u.quiet) returned (nearSlotOf_eq_none alone)).trans ?_)) rfl rfl
    rw [if_neg (by simp)]
    rfl
  · have near := lockedFrame_follows (s := u.quiet) (c := c) returned (nearSlotOf_eq_some other inside below)
    intro v
    have calm : v.scheduler = s.scheduler ∧ v.arbiter = s.arbiter := by
      dsimp only [v]
      split <;> exact ⟨rfl, rfl⟩
    refine serves.exec_frame good (locked.trans (near.trans ?_)) calm.1 (congrArg Arbiter.queue calm.2)
    dsimp only [v]
    by_cases same : c.nearSlot = some j
    · rw [if_pos same, if_neg (by simp [same])]
      rfl
    · rw [if_neg same, if_pos ⟨rfl, Ne.symm same⟩, setRecordNotice_live (s := u.quiet) .ambig counted.record]
      rfl
  · refine serves.exec_frame good (locked.trans ((if_neg (mt (hasReturn_iff (s := u.quiet) f).mp (Nat.not_le.mpr dark))).trans
      ((breakLock_live (s := u.quiet) counted.record).trans ?_))) rfl rfl
    rfl

end


section
/-! The end of a pursuit and what becomes of the beam (R39, R73, R74, R76, R88, R97, R113, R114): the states of an event that has sent nothing before the
end, written as the rules' states with the beam given up. -/

namespace Sys2Proof.Machine

variable {s t : State} {g : Request} {c : Context} {r : Record} {h : Handle}

/-! ### Nothing due (R109, R110) -/

theorem dueSlots_eq_nil_iff : s.dueSlots = [] ↔ ∀ e ∈ s.scheduler.entries, e.status ≠ .due := by
  simp [State.dueSlots]

/-- An entry placed that is not DUE makes nothing due. -/
theorem dueSlots_placeEntry {e : RevisitEntry} (none_ : s.dueSlots = []) (waits : e.status ≠ .due) : (s.placeEntry e).dueSlots = [] := by
  refine dueSlots_eq_nil_iff.mpr fun x mem => ?_
  rcases mem_insertEntry.mp mem with rfl | kept
  · exact waits
  · exact dueSlots_eq_nil_iff.mp none_ x (List.mem_filter.mp kept).1

/-! ### The beam given up (R73, R76, R88) -/

/-- A state with the beam given up and nothing sent: no context, an empty grant, the range request withdrawn. -/
def beamGivenUp (t : State) : State :=
  { sentNothing t with
    pursuit := none
    arbiter := { t.arbiter with grant := none }
    ports := { t.ports with outstanding := none, driveOut := [], rangeOut := [] } }

theorem sendHalt_beamGivenUp : (beamGivenUp t).sendHalt = beamFreed t := rfl

theorem settled_calm {n : Nat} (due : t.dueSlots = []) (calm : t.scheduler.passWanted = false) (b : Bool) : (t.setPassWanted b).settle n = t := by
  have due' : (t.setPassWanted b).dueSlots = [] := due
  rw [settle_nothingDue _ due']
  exact setPassWanted_same t calm

theorem pickWinner_none (queue : s.arbiter.queue = []) (stack : s.arbiter.stack = []) : s.pickWinner = none := by
  rw [State.pickWinner, queue, stack]
  rfl

theorem select_none (free : s.arbiter.grant = none) (running : s.arbiter.runMode = .running) (queue : s.arbiter.queue = [])
    (stack : s.arbiter.stack = []) : s.select true = s.sendHalt := by
  rw [State.select, if_pos ⟨by rw [free]; rfl, running⟩, queue, stack]
  rfl

/-- Where nothing waits a beam given up is freed with HALT, and no pass follows. -/
theorem givenUp_freed {n : Nat} {b : Bool} (running : t.arbiter.runMode = .running) (calm : NothingDue t) (queue : t.arbiter.queue = [])
    (stack : t.arbiter.stack = []) : (((beamGivenUp t).setPassWanted b).select true).settle n = beamFreed t := by
  rw [select_none (s := (beamGivenUp t).setPassWanted b) rfl running queue stack]
  exact settled_calm (t := beamFreed t) calm.2 calm.1 b

/-- What selection leaves that takes a request with a prediction, out of a queue and a stack. -/
def slewedTo (s : State) (q : Request) (r : Record) (d : Direction) (queue : List QueueEntry) (stack : List Request) : State :=
  (((((s.setQueue queue).setStack stack).setGrant (some q)).setContext (some (Context.fresh q d))).sendMove d).withRecord q.handle
    { r with state := .active .slewing }

theorem startSlew_live {q : Request} (d : Direction) (live : s.live q.handle = some r) :
    s.startSlew q d = (((s.setGrant (some q)).setContext (some (Context.fresh q d))).sendMove d).withRecord q.handle
      { r with state := .active .slewing } :=
  modifyRecord_live _ _ live

/-- The winner of a selection leaves the collection it stood in, and the other as it was (R79, R88). -/
theorem pickWinner_leaves {q : Request} {queue : List QueueEntry} {stack : List Request} (takes : Selects s.arbiter q queue stack)
    (distinct : QueueDistinct s.arbiter.queue) :
    ∃ b, s.pickWinner = some (q, ((s.setQueue queue).setStack stack).setPassWanted b) := by
  rcases takes with ⟨top, rfl, above⟩ | ⟨rfl, others, above, e, waits, rfl, best⟩
  · refine ⟨s.scheduler.passWanted, ?_⟩
    rw [State.pickWinner, top]
    cases first : bestEntry s.arbiter.queue with
    | none => rfl
    | some b => exact if_pos (above b (bestEntry_mem first))
  · refine ⟨true, ?_⟩
    have taken : s.loseEntry e = ((s.setQueue queue).setStack s.arbiter.stack).setPassWanted true := by
      rw [others]
      rfl
    rw [State.pickWinner, bestEntry_of_best distinct.1 waits best, ← taken]
    cases stack : s.arbiter.stack with
    | nil => rfl
    | cons top rest => exact if_neg (Nat.not_le.mpr (above top (by rw [stack]; rfl)))

/-- Selection of a request with a prediction slews its record. -/
theorem select_slews {q : Request} {queue : List QueueEntry} {stack : List Request} {d : Direction} (halt : Bool) (free : s.arbiter.grant = none)
    (running : s.arbiter.runMode = .running) (takes : Selects s.arbiter q queue stack) (distinct : QueueDistinct s.arbiter.queue)
    (live : s.live q.handle = some r) (predicted : r.prediction q.aim s.now = some d) :
    ∃ b, s.select halt = (slewedTo s q r d queue stack).setPassWanted b := by
  obtain ⟨b, won⟩ := pickWinner_leaves takes distinct
  refine ⟨b, ?_⟩
  have live' : (((s.setQueue queue).setStack stack).setPassWanted b).live q.handle = some r := live
  have aimed : (((s.setQueue queue).setStack stack).setPassWanted b).predictionFor q s.now = some d := by
    rw [State.predictionFor, live']
    exact predicted
  rw [State.select, if_pos ⟨by rw [free]; rfl, running⟩]
  obtain ⟨m, more⟩ : ∃ m, s.arbiter.queue.length + s.arbiter.stack.length = m + 1 := by
    refine Nat.exists_eq_add_one.mpr ?_
    rcases takes with ⟨top, -⟩ | ⟨-, -, -, e, waits, -⟩
    · rw [top, List.length_cons]; omega
    · have := List.length_pos_of_mem waits; omega
  rw [more, selectLoop, won]
  dsimp only
  rw [show (((s.setQueue queue).setStack stack).setPassWanted b).now = s.now from rfl, aimed]
  exact startSlew_live d live'

/-- A beam given up passes to the request that selection takes, and no pass follows. -/
theorem givenUp_passed {n : Nat} {b : Bool} {q : Request} {queue : List QueueEntry} {stack : List Request} {d : Direction}
    (running : t.arbiter.runMode = .running) (calm : NothingDue t) (takes : Selects t.arbiter q queue stack)
    (distinct : QueueDistinct t.arbiter.queue) (live : t.live q.handle = some r) (predicted : r.prediction q.aim t.now = some d) :
    (((beamGivenUp t).setPassWanted b).select true).settle n = beamPassed t q r d queue stack := by
  obtain ⟨b', slewed⟩ := select_slews (s := (beamGivenUp t).setPassWanted b) true rfl running takes distinct live predicted
  rw [slewed]
  exact settled_calm (t := beamPassed t q r d queue stack) calm.2 calm.1 b'

/-- An own event that ends the pursuit of a record and gives the beam on: what it leaves apart from the beam is all that counts. -/
theorem beamGivenOn_of_select {i : Instr} {s t : State} {slot : Fin 48} {f : State → State} {b : Bool} (runs : exec i s = s.ownEvent f)
    (up : s.resetnLow = false) (ends : f s.quiet = ((beamGivenUp t).setPassWanted b).select true) (running : t.arbiter.runMode = .running)
    (due : NothingDue t) (queue : t.arbiter.queue = s.arbiter.queue) (stack : t.arbiter.stack = s.arbiter.stack) (now : t.now = s.now)
    (others : ∀ k, k.slot ≠ slot → t.live k = s.live k) : BeamGivenOn i s t slot := by
  rw [BeamGivenOn, runs, ownEvent_high s f up, ends, ← queue, ← stack, ← now]
  refine ⟨fun noQueue noStack => congrArg _ (givenUp_freed running due noQueue noStack), fun q queue' stack' x d takes distinct other live predicted => ?_⟩
  rw [← others q.handle other] at live
  have takes' : Selects t.arbiter q queue' stack' := by
    rw [Selects, queue, stack]
    exact takes
  exact congrArg _ (givenUp_passed running due takes' distinct live predicted)

/-! ### The end of a pursuit (R73, R97) -/

/-- The record of a pursuit that has ended with an outcome; the latch of a locked one is cleared. -/
def endedAs (c : Context) (r : Record) (o : EndOutcome) : Record :=
  { r with state := .dormant, outcome := o, lockLatch := if c.stage = .locked then false else r.lockLatch }

theorem toDormant_live (live : s.live h = some r) (o : EndOutcome) :
    ∃ b, s.toDormant h o = (s.withRecord h { r with state := .dormant, outcome := o }).setPassWanted b := by
  rw [State.toDormant, modifyRecord_live _ _ live]
  split
  · split
    · exact ⟨true, rfl⟩
    · exact ⟨s.scheduler.passWanted, rfl⟩
  · exact ⟨s.scheduler.passWanted, rfl⟩

theorem Pursuing.endPursuit (serves : Pursuing s g c r) :
    s.endPursuit true = ((s.setContext none).withdrawRange).withRecord c.target { r with lockLatch := if c.stage = .locked then false else r.lockLatch } := by
  rw [State.endPursuit, serves.context]
  dsimp only
  have live : ((s.setContext none).withdrawRange).live c.target = some r := serves.record
  by_cases locked : c.stage = .locked
  · rw [if_pos ⟨rfl, locked⟩, if_pos locked, modifyRecord_live _ _ live]
  · rw [if_neg (fun both => locked both.2), if_neg locked, withRecord_self _ live]

/-- The record made DORMANT and the beam given up, before the end is reported. -/
theorem Pursuing.dormant (serves : Pursuing s g c r) (o : EndOutcome) :
    ∃ b, ((s.quiet.endPursuit true).setGrant none).toDormant g.handle o = (beamGivenUp (s.withRecord c.target (endedAs c r o))).setPassWanted b := by
  rw [serves.quiet.endPursuit, ← serves.target]
  obtain ⟨b, dormant⟩ := toDormant_live (s := (((s.quiet.setContext none).withdrawRange).withRecord c.target
    { r with lockLatch := if c.stage = .locked then false else r.lockLatch }).setGrant none) (live_withRecord _ _ _) o
  refine ⟨b, dormant.trans ?_⟩
  refine congrArg (State.setPassWanted · b) ?_
  exact withRecord_withRecord (((s.quiet.setContext none).withdrawRange).setGrant none) c.target _ _

theorem pursuitEnds_granted (granted : s.arbiter.grant = some g) (o : EndOutcome) :
    s.pursuitEnds o = ((s.endPursuit true).closeRequest g o).select true := by
  rw [State.pursuitEnds, granted]

/-- A record that has missed a revisit (R113). -/
def missedAs (r : Record) : Record :=
  { r with missCount := satAdd 15 r.missCount 1, notices := r.notices ||| recordBit .miss }

theorem miss_live (live : s.live h = some r) :
    s.miss h = ((s.withRecord h (missedAs r)).judgeLine).placeEntry
      { handle := h, due := s.now + timeOfPeriod r.period, status := .scheduled } := by
  rw [State.miss, live]
  dsimp only
  rw [modifyRecord_live _ _ live, setRecordNotice_withRecord]
  rfl

theorem revisitReport_missed {e : RevisitEntry} {o : EndOutcome} (listed : s.entryAt h.slot = some e) (offered : e.status = .offered)
    (bad : o = .lost ∨ o = .fault) : s.revisitReport h o = s.miss h := by
  rcases bad with rfl | rfl
  · rw [State.revisitReport, listed]
    exact if_pos offered
  · rw [State.revisitReport, listed]
    exact if_pos offered

/-- An end of a STATION or PENDANT request is reported to nobody. -/
theorem Pursuing.ends_plain (serves : Pursuing s g c r) (plain : g.origin = .station ∨ g.origin = .pendant) (o : EndOutcome) :
    ∃ b, s.quiet.pursuitEnds o = ((beamGivenUp (s.withRecord c.target (endedAs c r o))).setPassWanted b).select true := by
  obtain ⟨b, dormant⟩ := serves.dormant o
  refine ⟨b, ?_⟩
  rw [pursuitEnds_granted (s := s.quiet) serves.grant, State.closeRequest, dormant, State.reportEnd]
  rcases plain with origin | origin
  · rw [origin]; rfl
  · rw [origin]; rfl

/-- An end LOST or FAULT of an offered revisit is a miss (R113). -/
theorem Pursuing.ends_missed (serves : Pursuing s g c r) (revisit : g.origin = .revisit) {e : RevisitEntry}
    (listed : s.entryAt c.target.slot = some e) (offered : e.status = .offered) {o : EndOutcome} (bad : o = .lost ∨ o = .fault) :
    s.quiet.pursuitEnds o = ((beamGivenUp (((s.withRecord c.target (missedAs (endedAs c r o))).judgeLine).placeEntry
        { handle := c.target, due := s.now + timeOfPeriod r.period, status := .scheduled })).setPassWanted true).select true := by
  obtain ⟨b, dormant⟩ := serves.dormant o
  have notParked : o ≠ .parked := by rcases bad with rfl | rfl <;> exact nofun
  have target : g.handle = c.target := serves.target.symm
  rw [pursuitEnds_granted (s := s.quiet) serves.grant, State.closeRequest, dormant, State.reportEnd, revisit, target]
  dsimp only
  rw [revisitReport_missed (h := c.target) (s := (beamGivenUp (s.withRecord c.target (endedAs c r o))).setPassWanted b) listed offered bad,
    if_neg notParked, if_neg nofun]
  have live : ((beamGivenUp (s.withRecord c.target (endedAs c r o))).setPassWanted b).live c.target = some (endedAs c r o) := live_withRecord s _ _
  rw [miss_live live, ← withRecord_withRecord s c.target (endedAs c r o) (missedAs (endedAs c r o))]
  rfl

/-- An end LOST or FAULT of the home check sets HOME (R97, R114). -/
theorem Pursuing.ends_home (serves : Pursuing s g c r) (internal : g.origin = .internal) {o : EndOutcome} (bad : o = .lost ∨ o = .fault) :
    s.quiet.pursuitEnds o =
      ((beamGivenUp ((s.withRecord c.target (endedAs c r o)).setDeviceNotice .home)).setPassWanted true).select true := by
  obtain ⟨b, dormant⟩ := serves.dormant o
  have other : o ≠ .parked ∧ o ≠ .done := by rcases bad with rfl | rfl <;> exact ⟨nofun, nofun⟩
  rw [pursuitEnds_granted (s := s.quiet) serves.grant, State.closeRequest, dormant, State.reportEnd, internal]
  dsimp only
  rw [if_pos (show Origin.internal = .internal ∧ (o = .lost ∨ o = .fault) from ⟨rfl, bad⟩), if_neg other.1]
  refine congrArg (fun x => (State.setDeviceNotice (State.setPassWanted x true) .home).select true) (if_neg fun both => other.2 both.1) |>.trans ?_
  rfl


/-! ### The end LOST (R74) -/

/-- The record of a pursuit that was not locked and has ended LOST. -/
def lostAs (r : Record) : Record := { r with state := .dormant, outcome := .lost, notices := r.notices ||| recordBit .lost }

/-- The part with LOST noted for the target, before the end. -/
def lostNoted (s : State) (c : Context) (r : Record) : State :=
  (s.withRecord c.target { r with notices := r.notices ||| recordBit .lost }).judgeLine

theorem Pursuing.lostNoted (serves : Pursuing s g c r) : Pursuing (lostNoted s c r) g c { r with notices := r.notices ||| recordBit .lost } :=
  ⟨serves.up, serves.calm, serves.running, serves.grant, serves.context, serves.target, serves.origin, live_withRecord s _ _⟩

theorem Pursuing.pursuitLost (serves : Pursuing s g c r) : s.quiet.pursuitLost = (Machine.lostNoted s c r).quiet.pursuitEnds .lost := by
  rw [State.pursuitLost, show s.quiet.arbiter.grant = some g from serves.grant]
  dsimp only
  rw [← serves.target, setRecordNotice_live (s := s.quiet) .lost serves.record]
  rfl

theorem endedAs_lost (notLocked : c.stage ≠ .locked) :
    endedAs c { r with notices := r.notices ||| recordBit .lost } .lost = lostAs r := by
  rw [endedAs, if_neg notLocked]
  rfl

/-- Noting first and ending then writes one record, and the line is judged once. -/
theorem lostNoted_withRecord :
    (lostNoted s c r).withRecord c.target (lostAs r) = (s.withRecord c.target (lostAs r)).judgeLine := by
  have later := judgeLine_withRecord (s.withRecord c.target { r with notices := r.notices ||| recordBit .lost }) (lostAs r)
    (live_withRecord s _ _) rfl
  rw [lostNoted, ← later, withRecord_withRecord]

theorem Pursuing.lost_plain (serves : Pursuing s g c r) (notLocked : c.stage ≠ .locked) (plain : g.origin = .station ∨ g.origin = .pendant) :
    ∃ b, s.quiet.pursuitLost = ((beamGivenUp (s.withRecord c.target (lostAs r)).judgeLine).setPassWanted b).select true := by
  obtain ⟨b, ends⟩ := serves.lostNoted.ends_plain plain .lost
  rw [endedAs_lost notLocked, lostNoted_withRecord] at ends
  exact ⟨b, serves.pursuitLost.trans ends⟩

theorem Pursuing.lost_missed (serves : Pursuing s g c r) (notLocked : c.stage ≠ .locked) (revisit : g.origin = .revisit) {e : RevisitEntry}
    (listed : s.entryAt c.target.slot = some e) (offered : e.status = .offered) :
    s.quiet.pursuitLost = ((beamGivenUp (((s.withRecord c.target (missedAs (lostAs r))).judgeLine).placeEntry
      { handle := c.target, due := s.now + timeOfPeriod r.period, status := .scheduled })).setPassWanted true).select true := by
  have ends := serves.lostNoted.ends_missed revisit listed offered (.inl rfl)
  rw [endedAs_lost notLocked] at ends
  rw [serves.pursuitLost, ends, ← withRecord_withRecord s c.target { r with notices := r.notices ||| recordBit .lost }]
  rfl

theorem Pursuing.lost_home (serves : Pursuing s g c r) (notLocked : c.stage ≠ .locked) (internal : g.origin = .internal) :
    s.quiet.pursuitLost =
      ((beamGivenUp ((s.withRecord c.target (lostAs r)).setDeviceNotice .home)).setPassWanted true).select true := by
  have ends := serves.lostNoted.ends_home internal (.inl rfl)
  rw [endedAs_lost notLocked, lostNoted_withRecord] at ends
  exact serves.pursuitLost.trans ends

/-! ### What an end leaves, event by event -/

theorem live_withRecord_other (s : State) {h k : Handle} (x : Record) (other : k.slot ≠ h.slot) : (s.withRecord h x).live k = s.live k := by
  simp only [State.live, State.withRecord, slotAt_setSlot_ne _ _ _ _ other.symm]

/-- What the end LOST of a record in slot hands on, with the report to the scheduler by the request's origin (R74, R97, R113, R114). -/
theorem Pursuing.lostGivenOn (serves : Pursuing s g c r) (notLocked : c.stage ≠ .locked) (due : NothingDue s) {i : Instr} {f : State → State}
    (runs : exec i s = s.ownEvent f) {c' : Context} (serves' : Pursuing (s.setContext (some c')) g c' r) (target : c'.target = c.target)
    (stage : c'.stage = c.stage) (lost : f s.quiet = (s.setContext (some c')).quiet.pursuitLost) :
    let ends (t : State) := BeamGivenOn i s t c.target.slot
    (g.origin = .station ∨ g.origin = .pendant → ends (s.withRecord c.target (lostAs r)).judgeLine)
      ∧ (∀ e, g.origin = .revisit → s.entryAt c.target.slot = some e → e.status = .offered →
        ends ((s.withRecord c.target (missedAs (lostAs r))).judgeLine.placeEntry
          { handle := c.target, due := s.now + timeOfPeriod r.period, status := .scheduled }))
      ∧ (g.origin = .internal → ends ((s.withRecord c.target (lostAs r)).setDeviceNotice .home)) := by
  have notLocked' : c'.stage ≠ .locked := fun same => notLocked (stage.symm.trans same)
  refine ⟨fun plain => ?_, fun e revisit listed offered => ?_, fun internal => ?_⟩
  · obtain ⟨b, ends⟩ := serves'.lost_plain notLocked' plain
    rw [target] at ends
    exact beamGivenOn_of_select runs serves.up (lost.trans ends) serves.running due rfl rfl rfl fun k other => live_withRecord_other s _ other
  · rw [← target] at listed
    have ends := serves'.lost_missed notLocked' revisit listed offered
    rw [target] at ends
    exact beamGivenOn_of_select runs serves.up (lost.trans ends) serves.running ⟨due.1, dueSlots_placeEntry (s := (State.withRecord s _ _).judgeLine) due.2 nofun⟩
      rfl rfl rfl fun k other => live_withRecord_other s _ other
  · have ends := serves'.lost_home notLocked' internal
    rw [target] at ends
    exact beamGivenOn_of_select runs serves.up (lost.trans ends) serves.running due rfl rfl rfl fun k other => live_withRecord_other s _ other

end Sys2Proof.Machine

open Sys2Proof Sys2Proof.Machine

/-- Settles O47: a current fault is noted, and with a grant the pursuit ends FAULT, by the request's origin. -/
theorem driveFaultsEndPursuits : Obligations.DriveFaultsEndPursuits := by
  intro s tag why up calm
  have runs : exec (.driveFault tag why) s = s.ownEvent (·.takeFault tag) := rfl
  have settled {t : State} (taken : s.quiet.takeFault tag = t.quiet) (scheduler : t.scheduler = s.scheduler) (arbiter : t.arbiter = s.arbiter) :
      exec (.driveFault tag why) s = .next (sentNothing t) := by
    rw [runs, ownEvent_high s _ up, taken]
    refine congrArg _ (settle_calm _ ?_ ?_)
    · exact (congrArg Scheduler.passWanted scheduler).trans calm
    · exact le_of_eq (congrArg (fun a => a.queue.length) arbiter.symm)
  refine ⟨fun stale => settled ?_ rfl rfl, fun current free => settled ?_ rfl rfl, fun g c r serves current due => ?_⟩
  · exact if_neg fun found => stale (of_decide_eq_true found)
  · refine (if_pos (decide_eq_true current)).trans (if_neg ?_)
    rw [show (s.quiet.setDeviceNotice .drive).arbiter.grant = s.arbiter.grant from rfl, free]
    exact Bool.false_ne_true
  · have noted : Pursuing (s.setDeviceNotice .drive) g c r :=
      ⟨serves.up, serves.calm, serves.running, serves.grant, serves.context, serves.target, serves.origin, serves.record⟩
    have taken : s.quiet.takeFault tag = (s.setDeviceNotice .drive).quiet.pursuitEnds .fault := by
      refine (if_pos (decide_eq_true current)).trans (if_pos ?_)
      rw [show (s.quiet.setDeviceNotice .drive).arbiter.grant = s.arbiter.grant from rfl, serves.grant]
      rfl
    intro ends ended
    have merged : (s.setDeviceNotice .drive).withRecord c.target ended = (s.withRecord c.target ended).setDeviceNotice .drive :=
      (setDeviceNotice_withRecord s ended serves.record rfl .drive).symm
    have others (x : Record) (k : Handle) (other : k.slot ≠ c.target.slot) : (s.withRecord c.target x).live k = s.live k :=
      live_withRecord_other s x other
    refine ⟨fun plain => ?_, fun e revisit listed offered => ?_, fun internal => ?_⟩
    · obtain ⟨b, left⟩ := noted.ends_plain plain .fault
      exact beamGivenOn_of_select runs up (taken.trans (left.trans (by rw [← merged]; rfl))) serves.running due rfl rfl rfl (others ended)
    · have left := noted.ends_missed revisit listed offered (.inr rfl)
      intro t
      refine beamGivenOn_of_select runs up (taken.trans left) serves.running ⟨due.1, dueSlots_placeEntry (s := t) due.2 nofun⟩ rfl rfl rfl
        (others (missedAs ended))
    · have left := noted.ends_home internal (.inr rfl)
      exact beamGivenOn_of_select runs up (taken.trans (left.trans (by rw [← merged]; rfl))) serves.running due rfl rfl rfl (others ended)

end


section
/-! The arrivals of a search (R50, R69, R70, R129): the order of the waypoints, and what each arrival leaves. -/

namespace Sys2Proof.Machine

variable {s : State} {g : Request} {c : Context} {r : Record} {sr : Search}

/-! ### The next waypoint (R69, R70) -/

/-- A waypoint within the elevation limits. -/
theorem notSkipped_iff (k j : Nat) : sr.notSkipped (k, j) = true ↔ (waypointAt sr k j).elevation.natAbs ≤ 1500000 := decide_eq_true_iff

/-- The first index after a waypoint's own at which a test of its ring passes. -/
theorem find_restOfRing {α : Type} (f : Nat → α) (p : α → Bool) {n i j : Nat} (after : i < j) (inside : j < n) (passes : p (f j) = true)
    (between : ∀ k, i < k → k < j → p (f k) = false) : (((List.range n).drop (i + 1)).map f).find? p = some (f j) := by
  have room : j - (i + 1) < (((List.range n).drop (i + 1)).map f).length := by simp; omega
  refine List.find?_eq_some_iff_getElem.mpr ⟨passes, j - (i + 1), room, ?_, fun m below => ?_⟩
  · rw [List.getElem_map, List.getElem_drop, List.getElem_range]
    congr 1
    omega
  · rw [List.getElem_map, List.getElem_drop, List.getElem_range, Bool.not_eq_true']
    exact between _ (by omega) (by omega)

theorem find_restOfRing_none {α : Type} (f : Nat → α) (p : α → Bool) {n i : Nat} (none_ : ∀ k, i < k → k < n → p (f k) = false) :
    (((List.range n).drop (i + 1)).map f).find? p = none := by
  refine List.find?_eq_none.mpr fun x mem => ?_
  obtain ⟨k, inRing, rfl⟩ := List.mem_map.mp mem
  obtain ⟨m, room, rfl⟩ := List.mem_iff_getElem.mp inRing
  have inside : i + 1 + m < n := by simp at room; omega
  simpa using none_ (i + 1 + m) (by omega) inside

theorem advance_inRing {j : Nat} (after : sr.index < j) (inside : j < 6 * sr.ring) (legal : sr.notSkipped (sr.ring, j) = true)
    (between : ∀ i, sr.index < i → i < j → sr.notSkipped (sr.ring, i) = false) : sr.advance = some { sr with index := j } := by
  rw [Search.advance, Search.later, List.find?_append, find_restOfRing (fun j => (sr.ring, j)) _ after inside legal between]
  rfl

theorem advance_nextRing (more : sr.ring < sr.rings) (legal : sr.notSkipped (sr.ring + 1, 0) = true)
    (skipped : ∀ i, sr.index < i → i < 6 * sr.ring → sr.notSkipped (sr.ring, i) = false) :
    sr.advance = some { sr with ring := sr.ring + 1, index := 0 } := by
  obtain ⟨m, rings⟩ : ∃ m, sr.rings - sr.ring = m + 1 := Nat.exists_eq_add_one.mpr (by omega)
  obtain ⟨n, places⟩ : ∃ n, 6 * (sr.ring + 1) = n + 1 := Nat.exists_eq_add_one.mpr (by omega)
  rw [Search.advance, Search.later, List.find?_append, find_restOfRing_none (fun j => (sr.ring, j)) _ skipped, rings,
    List.range_succ_eq_map, List.flatMap_cons, Nat.add_zero, places, List.range_succ_eq_map, List.map_cons, List.cons_append,
    List.find?_cons_of_pos legal]
  rfl

theorem advance_exhausted (last : sr.rings ≤ sr.ring) (skipped : ∀ i, sr.index < i → i < 6 * sr.ring → sr.notSkipped (sr.ring, i) = false) :
    sr.advance = none := by
  rw [Search.advance, Search.later, List.find?_append, find_restOfRing_none (fun j => (sr.ring, j)) _ skipped, Nat.sub_eq_zero_of_le last]
  rfl

/-! ### Arrivals (R50, R70, R129) -/

/-- An own event that leaves the scheduler and the arbiter alone, as a whole. -/
theorem exec_own {i : Instr} {f : State → State} {t : State} (runs : exec i s = s.ownEvent f) (up : s.resetnLow = false)
    (calm : s.scheduler.passWanted = false) (taken : f s.quiet = t) (scheduler : t.scheduler = s.scheduler) (arbiter : t.arbiter = s.arbiter) :
    exec i s = .next t := by
  rw [runs, ownEvent_high s _ up, taken]
  refine congrArg _ (settle_calm _ ?_ ?_)
  · rw [scheduler, calm]
  · rw [arbiter]

/-- An arrival that leaves the scheduler and the arbiter alone. -/
theorem exec_arrived {tag : Byte} {t : State} (up : s.resetnLow = false) (calm : s.scheduler.passWanted = false)
    (taken : s.quiet.takeArrived tag = t) (scheduler : t.scheduler = s.scheduler) (arbiter : t.arbiter = s.arbiter) :
    exec (.arrived tag) s = .next t :=
  exec_own (f := (·.takeArrived tag)) rfl up calm taken scheduler arbiter

theorem takeArrived_stale {tag : Byte} (stale : s.ports.latestMoveTag ≠ some tag ∨ s.arbiter.grant = none) : s.takeArrived tag = s := by
  refine if_neg fun both => ?_
  rcases stale with other | free
  · exact other (of_decide_eq_true both.1)
  · exact absurd both.2 (by simp [free])

theorem Pursuing.takeArrived (serves : Pursuing s g c r) {tag : Byte} (current : s.ports.latestMoveTag = some tag) :
    s.takeArrived tag = s.pursuitArrived :=
  if_pos ⟨decide_eq_true current, by rw [serves.grant]; rfl⟩

theorem Pursuing.pursuitArrived_idle (serves : Pursuing s g c r) (still : c.moveInFlight = false) : s.pursuitArrived = s := by
  rw [State.pursuitArrived, serves.context]
  exact if_neg (by simp [still])

theorem Pursuing.pursuitArrived_slewing (serves : Pursuing s g c r) (moving : c.moveInFlight = true) (stage : c.stage = .slewing) :
    s.pursuitArrived = s.startSearch c r c.aimDirection := by
  simp only [State.pursuitArrived, serves.context, moving, stage, serves.record, if_true]

theorem Pursuing.pursuitArrived_searching (serves : Pursuing s g c r) (moving : c.moveInFlight = true) (stage : c.stage = .searching)
    (search : c.search = some sr) : s.pursuitArrived = s.waypointReached c sr := by
  simp only [State.pursuitArrived, serves.context, moving, stage, search, if_true]

theorem waypointReached_onward {next : Search} (advanced : sr.advance = some next) :
    s.waypointReached c sr = (s.setContext (some { c with moveInFlight := true, search := some next })).sendMove next.waypoint := by
  rw [State.waypointReached, advanced]

theorem waypointReached_exhausted (exhausted : sr.advance = none) :
    s.waypointReached c sr = (s.setContext (some { c with moveInFlight := false })).pursuitLost := by
  rw [State.waypointReached, exhausted]

/-- The record that ends LOST without a report. -/
theorem lostAs_eq (r : Record) :
    ({ r with state := .dormant, outcome := .lost, notices := r.notices ||| recordBit .lost ||| 0 } : Record) = lostAs r := by
  simp [lostAs]

end Sys2Proof.Machine

open Sys2Proof Sys2Proof.Machine

/-- Settles O46: the offsets of the waypoints are those that offsets_truncate bounds; an arrival is stale, starts a search, or walks the spiral to its next
waypoint within the limits, and an exhausted spiral ends the pursuit LOST. -/
theorem arrivalsWalkTheSpiral : Obligations.ArrivalsWalkTheSpiral := by
  refine ⟨fun sr k j one twelve inRing step => ?_, fun s tag up calm => ⟨fun stale => ?_, fun g c r serves current => ⟨fun still => ?_,
    fun moving slewing => ?_, fun sr moving searching search => ?_⟩⟩⟩
  · obtain ⟨azimuth, elevation⟩ := offsets_truncate one twelve inRing step
    exact ⟨_, _, azimuth, elevation, rfl⟩
  · exact exec_arrived up calm (takeArrived_stale (s := s.quiet) stale) rfl rfl
  · exact exec_arrived up calm ((serves.quiet.takeArrived current).trans (serves.quiet.pursuitArrived_idle still)) rfl rfl
  · exact exec_arrived up calm ((serves.quiet.takeArrived current).trans ((serves.quiet.pursuitArrived_slewing moving slewing).trans
      (startSearch_quiet c.aimDirection serves.record))) rfl rfl
  · intro legal goes lost
    have reached := (serves.quiet.takeArrived current).trans (serves.quiet.pursuitArrived_searching moving searching search)
    have skips {k j : Nat} (beyond : ¬legal k j) : sr.notSkipped (k, j) = false := Bool.not_eq_true _ ▸ mt (notSkipped_iff k j).mp beyond
    refine ⟨fun j after inside within between => ?_, fun more within skipped => ?_, fun last skipped due => ?_⟩
    · have next := advance_inRing after inside ((notSkipped_iff _ _).mpr within) fun i low high => skips (between i low high)
      exact exec_arrived up calm (reached.trans (waypointReached_onward next)) rfl rfl
    · have next := advance_nextRing more ((notSkipped_iff _ _).mpr within) fun i low high => skips (skipped i low high)
      exact exec_arrived up calm (reached.trans (waypointReached_onward next)) rfl rfl
    · have exhausted := advance_exhausted last fun i low high => skips (skipped i low high)
      have stopped : Pursuing (s.setContext (some { c with moveInFlight := false })) g { c with moveInFlight := false } r :=
        ⟨serves.up, serves.calm, serves.running, serves.grant, rfl, serves.target, serves.origin, serves.record⟩
      have given := serves.lostGivenOn (by rw [searching]; exact nofun) due (f := (·.takeArrived tag)) (i := .arrived tag) rfl stopped rfl rfl
        (reached.trans (waypointReached_exhausted exhausted))
      dsimp only [lost]
      rw [lostAs_eq]
      exact given

end


section
/-! Range completions and the range timeout at the pursuit unit (R21, R53 to R57, R60 to R64, R133, R134). -/

namespace Sys2Proof.Machine

variable {s : State} {g : Request} {c : Context} {r : Record} {q : RangeRequest} {tag : Byte} {distance : Nat}

/-! ### Completions that are current (R133) -/

theorem rangeIsCurrent_stale (stale : ∀ q, s.ports.outstanding = some q → q.tag ≠ tag) : s.rangeIsCurrent tag = false := by
  rw [State.rangeIsCurrent]
  cases asked : s.ports.outstanding with
  | none => rfl
  | some q => exact decide_eq_false (stale q asked)

theorem rangeIsCurrent_of_tag (asked : s.ports.outstanding = some q) (same : q.tag = tag) : s.rangeIsCurrent tag = true := by
  rw [State.rangeIsCurrent, asked]
  exact decide_eq_true same

/-- The beam serves its record after the range request is withdrawn as it did before. -/
theorem Pursuing.withdrawRange (serves : Pursuing s g c r) : Pursuing s.withdrawRange g c r :=
  ⟨serves.up, serves.calm, serves.running, serves.grant, serves.context, serves.target, serves.origin, serves.record⟩

theorem exec_reading (s : State) (tag : Byte) (distance : Nat) : exec (.reading tag distance) s = s.ownEvent (·.takeReading tag distance) := rfl

theorem exec_fail (s : State) (tag : Byte) (why : RangeFailReason) : exec (.fail tag why) s = s.ownEvent (·.takeFail tag) := rfl

theorem exec_rangeTimeout (s : State) : exec .rangeTimeout s = s.ownEvent State.takeRangeTimeout := rfl

theorem exec_reading_stale (up : s.resetnLow = false) (calm : s.scheduler.passWanted = false)
    (stale : ∀ q, s.ports.outstanding = some q → q.tag ≠ tag) : exec (.reading tag distance) s = .next (sentNothing s) := by
  have old := rangeIsCurrent_stale (s := s.quiet) stale
  exact exec_own (exec_reading s tag distance) up calm (if_neg (by simp [old])) rfl rfl

theorem takeReading_current (asked : s.ports.outstanding = some q) (same : q.tag = tag) :
    s.takeReading tag distance = s.withdrawRange.pursuitReading distance := if_pos (rangeIsCurrent_of_tag asked same)

theorem Pursuing.pursuitReading_ranging (serves : Pursuing s g c r) (stage : c.stage = .ranging) :
    s.pursuitReading distance = s.rangingReading c r distance := by
  simp only [State.pursuitReading, serves.context, serves.record, stage]

theorem Pursuing.pursuitReading_locked (serves : Pursuing s g c r) (stage : c.stage = .locked) :
    s.pursuitReading distance = s.lockedReading c r distance := by
  simp only [State.pursuitReading, serves.context, serves.record, stage]

/-! ### Readings in RANGING (R54, R57) -/

theorem readingsAgree_iff {held agreement : Nat} :
    readingsAgree (some held) distance agreement = true ↔ ((held : Int) - distance).natAbs ≤ agreement := decide_eq_true_iff

theorem rangingReading_first (first : c.readings = 0) :
    s.rangingReading c r distance =
      s.sendRangeFor { c with rangeInFlight := false, readings := c.readings + 1, heldReading := some distance } := if_pos first

theorem rangingReading_agreed {held : Nat} (later : 1 ≤ c.readings) (last : c.heldReading = some held)
    (agree : ((held : Int) - distance).natAbs ≤ s.classes[r.cls.val].rangeAgreement) :
    s.rangingReading c r distance = s.enterLocked { c with rangeInFlight := false, readings := c.readings + 1 } r distance := by
  have agreed : readingsAgree c.heldReading distance (s.classOf r).rangeAgreement = true := by
    rw [last]
    exact readingsAgree_iff.mpr agree
  exact (if_neg (by omega)).trans (if_pos agreed)

theorem rangingReading_again {held : Nat} (later : 1 ≤ c.readings) (few : c.readings < 3) (last : c.heldReading = some held)
    (apart : ¬((held : Int) - distance).natAbs ≤ s.classes[r.cls.val].rangeAgreement) :
    s.rangingReading c r distance =
      s.sendRangeFor { c with rangeInFlight := false, readings := c.readings + 1, heldReading := some distance } := by
  have differ : ¬readingsAgree c.heldReading distance (s.classOf r).rangeAgreement = true := by
    rw [last]
    exact mt readingsAgree_iff.mp apart
  have room : c.readings + 1 < 4 := by omega
  exact (if_neg (by omega)).trans ((if_neg differ).trans (if_pos room))

theorem rangingReading_fails {held : Nat} (many : 3 ≤ c.readings) (last : c.heldReading = some held)
    (apart : ¬((held : Int) - distance).natAbs ≤ s.classes[r.cls.val].rangeAgreement) :
    s.rangingReading c r distance = s.rangingFails { c with rangeInFlight := false, readings := c.readings + 1 } r := by
  have differ : ¬readingsAgree c.heldReading distance (s.classOf r).rangeAgreement = true := by
    rw [last]
    exact mt readingsAgree_iff.mp apart
  have full : ¬c.readings + 1 < 4 := by omega
  exact (if_neg (by omega)).trans ((if_neg differ).trans (if_neg full))

/-- A RANGE request of the pursuit, in an event that has sent nothing before it. -/
theorem sendRangeFor_quiet (s : State) (c : Context) :
    s.quiet.withdrawRange.sendRangeFor c = rangeAsked { s with pursuit := some { c with rangeInFlight := true } } := rfl

/-- A failure in RANGING is counted and starts a search (R54, R55). -/
theorem rangingFails_quiet {captured : Direction} (live : s.live c.target = some r) (last : c.lastCaptured = some captured) :
    s.quiet.withdrawRange.rangingFails c r =
      searchBegun { s with notices := { s.notices with rangeFailures := min 65535 (s.notices.rangeFailures + 1) } } c r captured := by
  rw [State.rangingFails, captured_eq last]
  have counted : s.quiet.withdrawRange.countRangeFailure =
      (State.withdrawRange { s with notices := { s.notices with rangeFailures := min 65535 (s.notices.rangeFailures + 1) } }).quiet := rfl
  rw [counted]
  exact startSearch_quiet captured live

/-- A search start writes anew what the readings have counted in the context. -/
theorem searchBegun_readings (s : State) (c : Context) (r : Record) (captured : Direction) (n : Nat) :
    searchBegun s { c with rangeInFlight := false, readings := n } r captured = searchBegun s c r captured := rfl

/-- Entry to LOCKED, and the reading taken in it (R57). -/
theorem enterLocked_live (live : s.live c.target = some r) :
    s.enterLocked c r distance =
      ((s.withRecord c.target { r with state := .active .locked, notices := r.notices ||| recordBit .lock }).judgeLine).lockedReading
        { c with stage := .locked, nearSlot := none, readings := 0, heldReading := none } r distance := by
  rw [State.enterLocked, State.setRecordState, modifyRecord_live _ _ live, setRecordNotice_withRecord]

/-! ### Readings in LOCKED (R21, R60, R63, R64) -/

/-- A fix taken of a live record, written or, under hold with a fix pending, discarded (R21). -/
def fixTaken (s : State) (h : Handle) (r : Record) (f : Fix) (m : Option Motion) : State :=
  if r.hold = true ∧ r.fixPending = true then s.withRecord h { r with fixOverrun := true }
  else (s.withRecord h { r with
    fix := some f, motion := m, sequence := r.sequence + 1, fixPending := true, fixOverrun := r.fixOverrun || r.fixPending
    notices := r.notices ||| recordBit .fix }).judgeLine

theorem tableWritesFix_roving {h : Handle} {f : Fix} (live : s.live h = some r) (roving : r.kind = .roving) :
    s.tableWritesFix h r f = (s.withRecord h { r.writeFix f (motionOf r.fix f) with notices := r.notices ||| recordBit .fix }).judgeLine := by
  have moves : r.isFixed = false := by simp [Record.isFixed, roving]
  rw [State.tableWritesFix, moves, modifyRecord_live _ _ live, setRecordNotice_withRecord]
  rfl

theorem deliverFix_roving {h : Handle} {f : Fix} (live : s.live h = some r) (roving : r.kind = .roving) :
    s.deliverFix h f = fixTaken s h r f (motionOf r.fix f) := by
  have moves : r.isFixed = false := by simp [Record.isFixed, roving]
  rw [State.deliverFix, live]
  dsimp only
  rw [moves, tableWritesFix_roving live roving, modifyRecord_live _ _ live]
  rfl

theorem lockedReading_plain (plain : c.origin = .station ∨ c.origin = .pendant) :
    s.lockedReading c r distance =
      let held : Context := { c with rangeInFlight := false, pendingMark := none }
      let t := (s.setContext (some held)).deliverFix c.target (s.composeFix c r distance)
      if r.params.fixInterval = 0 then t.sendRangeFor held
      else t.setContext (some { held with fixWait := some (t.now + timeOfMs r.params.fixInterval) }) := by
  rcases plain with origin | origin
  · rw [State.lockedReading]
    simp only [origin]
  · rw [State.lockedReading]
    simp only [origin]

/-- The fix of a reading (R63). -/
def fixOf (s : State) (c : Context) (r : Record) (distance quality : Nat) (captured : Direction) : Fix :=
  { direction := captured, range := distance + s.classes[r.cls.val].sphereOffset, stamp := s.time.count + s.time.offset
    quality := quality, near := c.nearSlot, mark := c.pendingMark, composed := s.time.count }

theorem composeFix_eq {quality : Nat} {captured : Direction} (last : c.lastCaptured = some captured) (seen : c.latestIntensity = some quality) :
    s.composeFix c r distance = fixOf s c r distance quality captured := by
  rw [State.composeFix, captured_eq last, seen]
  rfl

theorem motionOf_none {previous : Option Fix} {f : Fix}
    (bad : ∀ p, previous = some p → (f.composed - p.composed).toNat = 0 ∨ 2000000 < (f.composed - p.composed).toNat ∨ p.near ≠ none ∨ f.near ≠ none) :
    motionOf previous f = none := by
  cases previous with
  | none => rfl
  | some p =>
    refine if_neg ?_
    rintro ⟨one, most, clear, clear'⟩
    rcases bad p rfl with zero | long | near | near
    · omega
    · omega
    · exact near clear
    · exact near clear'

theorem motionOf_some {p f : Fix} (one : 1 ≤ (f.composed - p.composed).toNat) (most : (f.composed - p.composed).toNat ≤ 2000000)
    (clear : p.near = none) (clear' : f.near = none) :
    motionOf (some p) f = some
      { azimuthRate := rateOf (azimuthDifference f.direction p.direction) (f.composed - p.composed).toNat
        elevationRate := rateOf (elevationDifference f.direction p.direction) (f.composed - p.composed).toNat
        rangeRate := rateOf ((f.range : Int) - p.range) (f.composed - p.composed).toNat } := if_pos ⟨one, most, clear, clear'⟩

/-- A reading of a LOCKED ROVING record under STATION or PENDANT origin: the fix taken, then the next RANGE or the fix wait. -/
theorem Pursuing.reading_roving (serves : Pursuing s g c r) (asked : s.ports.outstanding = some q) (same : q.tag = tag) (stage : c.stage = .locked)
    (roving : r.kind = .roving) (plain : g.origin = .station ∨ g.origin = .pendant) {quality : Nat} {captured : Direction}
    (last : c.lastCaptured = some captured) (seen : c.latestIntensity = some quality) {m : Option Motion}
    (motion : motionOf r.fix (fixOf s c r distance quality captured) = m) :
    let taken := fixTaken s c.target r (fixOf s c r distance quality captured) m
    (r.params.fixInterval = 0 → exec (.reading tag distance) s = .next
        (rangeAsked { taken with pursuit := some { c with rangeInFlight := true, pendingMark := none } }))
      ∧ (r.params.fixInterval ≠ 0 → exec (.reading tag distance) s = .next (sentNothing { taken with
          ports := { s.ports with outstanding := none }
          pursuit := some { c with
            rangeInFlight := false, pendingMark := none
            fixWait := some (s.time.count + BitVec.ofNat 48 (r.params.fixInterval * 1000)) } })) := by
  rw [← serves.origin] at plain
  have taken := (takeReading_current (s := s.quiet) (distance := distance) asked same).trans
    ((serves.quiet.withdrawRange.pursuitReading_locked stage).trans (lockedReading_plain plain))
  have live : (s.quiet.withdrawRange.setContext (some { c with rangeInFlight := false, pendingMark := none })).live c.target = some r := serves.record
  dsimp only at taken
  rw [composeFix_eq last seen, deliverFix_roving live roving,
    show motionOf r.fix (fixOf s.quiet.withdrawRange c r distance quality captured) = m from motion] at taken
  refine ⟨fun none_ => ?_, fun some_ => ?_⟩
  · refine exec_own (exec_reading s tag distance) serves.up serves.calm (taken.trans ((if_pos none_).trans ?_)) ?_ ?_
    all_goals
      unfold fixTaken
      split <;> rfl
  · refine exec_own (exec_reading s tag distance) serves.up serves.calm (taken.trans ((if_neg some_).trans ?_)) ?_ ?_
    all_goals
      unfold fixTaken
      split <;> rfl

/-! ### Failures (R55, R62, R133, R134) -/

theorem Pursuing.pursuitFail_ranging (serves : Pursuing s g c r) (stage : c.stage = .ranging) :
    s.pursuitFail = s.rangingFails { c with rangeInFlight := false } r := by
  simp only [State.pursuitFail, serves.context, serves.record, stage]

theorem Pursuing.pursuitFail_locked (serves : Pursuing s g c r) (stage : c.stage = .locked) :
    s.pursuitFail = s.countRangeFailure.sendRangeFor c := by
  simp only [State.pursuitFail, serves.context, serves.record, stage]

/-- The failures counted, one more. -/
def rangeFailed (s : State) : State := { s with notices := { s.notices with rangeFailures := min 65535 (s.notices.rangeFailures + 1) } }

theorem Pursuing.fails_ranging (serves : Pursuing s g c r) (stage : c.stage = .ranging) {captured : Direction} (last : c.lastCaptured = some captured) :
    s.quiet.withdrawRange.pursuitFail = searchBegun (rangeFailed s) c r captured :=
  (serves.quiet.withdrawRange.pursuitFail_ranging stage).trans (rangingFails_quiet (c := { c with rangeInFlight := false }) serves.record last)

theorem Pursuing.fails_locked (serves : Pursuing s g c r) (stage : c.stage = .locked) :
    s.quiet.withdrawRange.pursuitFail = rangeAsked { rangeFailed s with pursuit := some { c with rangeInFlight := true } } :=
  serves.quiet.withdrawRange.pursuitFail_locked stage

theorem Pursuing.setDeviceNotice (serves : Pursuing s g c r) (k : DeviceNotice) : Pursuing (s.setDeviceNotice k) g c r :=
  ⟨serves.up, serves.calm, serves.running, serves.grant, serves.context, serves.target, serves.origin, serves.record⟩

end Sys2Proof.Machine

open Sys2Proof Sys2Proof.Machine

/-- Settles O48: a stale reading, and in RANGING the first, one that disagrees and one that agrees, which is a reading of a record made LOCKED. -/
theorem rangingReadingsLock : Obligations.RangingReadingsLock := by
  intro s tag distance up calm
  refine ⟨exec_reading_stale up calm, fun g c r q serves asked same stage => ?_⟩
  intro next agree
  have reads := (takeReading_current (s := s.quiet) (distance := distance) asked same).trans
    (serves.quiet.withdrawRange.pursuitReading_ranging stage)
  refine ⟨fun first => ?_, fun held later last => ⟨fun apart few => ?_, fun apart many captured follows => ?_, fun agreed => ?_⟩⟩
  · have asks := reads.trans ((rangingReading_first first).trans (sendRangeFor_quiet s _))
    exact exec_own (exec_reading s tag distance) up calm asks rfl rfl
  · have asks := reads.trans ((rangingReading_again (s := s.quiet.withdrawRange) later few last apart).trans (sendRangeFor_quiet s _))
    exact exec_own (exec_reading s tag distance) up calm asks rfl rfl
  · have searched := (rangingFails_quiet (c := { c with rangeInFlight := false, readings := c.readings + 1 }) serves.record follows).trans
      (searchBegun_readings _ c r captured (c.readings + 1))
    have failed := reads.trans ((rangingReading_fails (s := s.quiet.withdrawRange) many last apart).trans searched)
    exact exec_own (exec_reading s tag distance) up calm failed rfl rfl
  · intro locked
    have entered := reads.trans ((rangingReading_agreed (s := s.quiet.withdrawRange) later last agreed).trans
      (enterLocked_live (s := s.quiet.withdrawRange) serves.record))
    have again : Pursuing { locked with pursuit := some { c with stage := .locked, nearSlot := none, readings := 0, heldReading := none } } g
        { c with stage := .locked, nearSlot := none, readings := 0, heldReading := none }
        { r with state := .active .locked, notices := r.notices ||| recordBit .lock } :=
      ⟨up, calm, serves.running, serves.grant, rfl, serves.target, serves.origin, live_withRecord s _ _⟩
    have read := (takeReading_current (s := State.quiet { locked with pursuit := some { c with
      stage := .locked, nearSlot := none, readings := 0, heldReading := none } }) (distance := distance) asked same).trans
        (again.quiet.withdrawRange.pursuitReading_locked rfl)
    rw [exec_reading s, exec_reading, ownEvent_high s _ up, ownEvent_high _ _ again.up, entered, read]
    rfl

/-- Settles O49: the fix is composed and taken; the motion estimate by the fix before it. -/
theorem lockedReadingsWriteFixes : Obligations.LockedReadingsWriteFixes := by
  intro s tag distance quality g c r q captured serves asked same stage roving plain last seen f clamp taken goes
  have reads {m : Option Motion} (motion : motionOf r.fix f = m) : goes m := serves.reading_roving asked same stage roving plain last seen motion
  refine ⟨fun none_ => reads (motionOf_none fun p some_ => absurd (none_.symm.trans some_) nofun), fun p some_ => ?_⟩
  refine ⟨fun bad => ?_, fun one most clear clear' => ?_⟩
  · refine reads (motionOf_none fun p' some' => ?_)
    obtain rfl := Option.some.inj (some_.symm.trans some')
    exact bad
  · exact reads ((congrArg (motionOf · f) some_).trans (motionOf_some one most clear clear'))

/-- Settles O51: stale and undue without effect; a current failure is counted, and in RANGING a search starts, in LOCKED the request is sent again. -/
theorem rangeFailures : Obligations.RangeFailures := by
  intro s tag why up calm counted
  refine ⟨fun stale => ?_, fun undue => ?_, fun g c r q serves asked => ?_⟩
  · exact exec_own (exec_fail s tag why) up calm (if_neg (by simp [rangeIsCurrent_stale (s := s.quiet) stale])) rfl rfl
  · refine exec_own (exec_rangeTimeout s) up calm (if_neg fun expired => ?_) rfl rfl
    obtain ⟨q, asked, reached⟩ := rangeExpired_iff.mp expired
    exact undue q asked reached
  refine ⟨fun same => ⟨fun captured stage last => ?_, fun stage => ?_⟩, fun due => ⟨fun captured stage last => ?_, fun stage => ?_⟩⟩
  · exact exec_own (exec_fail s tag why) up calm ((if_pos (rangeIsCurrent_of_tag asked same)).trans (serves.fails_ranging stage last)) rfl rfl
  · exact exec_own (exec_fail s tag why) up calm ((if_pos (rangeIsCurrent_of_tag asked same)).trans (serves.fails_locked stage)) rfl rfl
  · exact exec_own (exec_rangeTimeout s) up calm ((if_pos (rangeExpired_iff.mpr ⟨q, asked, due⟩)).trans
      ((serves.setDeviceNotice .range).fails_ranging stage last)) rfl rfl
  · exact exec_own (exec_rangeTimeout s) up calm ((if_pos (rangeExpired_iff.mpr ⟨q, asked, due⟩)).trans
      ((serves.setDeviceNotice .range).fails_locked stage)) rfl rfl

end


section
/-! Readings of a LOCKED fixed record (R21, R36, R60, R112, R118, R119): the fix taken, the revisit satisfied, the drift check, and the end DONE. -/

namespace Sys2Proof.Machine

variable {s : State} {g : Request} {c : Context} {r : Record} {h : Handle}

/-! ### A record written, its revisit satisfied, and the line judged (R112, R149) -/

/-- The revisit of a record due one period after a time, if it has an entry. -/
def satisfiedAt (s : State) (h : Handle) (due : Time) (t : State) : State :=
  if (s.entryAt h.slot).isSome then t.placeEntry { handle := h, due := due, status := .scheduled } else t

/-- A record written with its revisit satisfied, and the line judged. -/
def takenAs (s : State) (h : Handle) (due : Time) (x : Record) : State := (satisfiedAt s h due (s.withRecord h x)).judgeLine

theorem takenAs_live (due : Time) (x : Record) : (takenAs s h due x).live h = some x := by
  unfold takenAs satisfiedAt
  split
  · exact live_withRecord s h x
  · exact live_withRecord s h x

/-- A record written once more, and the line judged after it. -/
theorem takenAs_noted (due : Time) (x x' : Record) : ((takenAs s h due x).withRecord h x').judgeLine = takenAs s h due x' := by
  unfold takenAs satisfiedAt
  rw [← withRecord_withRecord s h x x']
  split
  · rfl
  · rfl

/-- A record written once more with the same notices: the line stands as judged. -/
theorem takenAs_withRecord (due : Time) (x x' : Record) (same : x'.notices = x.notices) :
    (takenAs s h due x).withRecord h x' = takenAs s h due x' := by
  have judged := judgeLine_withRecord (takenAs s h due x) x' (takenAs_live due x) same
  rw [takenAs_noted] at judged
  exact judged.symm

theorem takenAs_setRecordNotice (due : Time) (x : Record) (k : RecordNotice) :
    (takenAs s h due x).setRecordNotice k h = takenAs s h due { x with notices := x.notices ||| recordBit k } := by
  rw [setRecordNotice_live k (takenAs_live due x), takenAs_noted]

theorem judgeLine_of_told (told : LineTellsCondition s) : s.judgeLine = s := by
  rw [State.judgeLine, ← told]

/-! ### The table's taking of a fix (R21, R36) -/

theorem zone_withRecord (x : Record) (i : Fin 48) :
    (s.withRecord h x).zone i = if h.slot = i then x.position.map fun d => (d, s.effectiveWindow x) else s.zone i := by
  have held : (s.withRecord h x).recordAt i = if h.slot = i then some x else s.recordAt i := by
    rw [State.withRecord, recordAt_setSlot]
  by_cases same : h.slot = i
  · rw [if_pos same] at held ⊢
    rw [State.zone, held]
    rfl
  · rw [if_neg same] at held ⊢
    rw [State.zone, held]
    rfl

/-- Whose window overlaps another's is read off the positions and windows alone. -/
theorem overlapsAny_withRecord (x x' : Record) (kind : x'.kind = x.kind) (reference : x'.reference = x.reference) (fix : x'.fix = x.fix)
    (params : x'.params = x.params) (cls : x'.cls = x.cls) (i : Fin 48) :
    ((s.withRecord h x').judgeLine).overlapsAny i = (s.withRecord h x).overlapsAny i := by
  have position : x'.position = x.position := by
    unfold Record.position Record.isFixed
    rw [kind, reference, fix]
  have window : s.effectiveWindow x' = s.effectiveWindow x := by simp only [State.effectiveWindow, State.classOf, params, cls]
  have zones : ∀ j, ((s.withRecord h x').judgeLine).zone j = (s.withRecord h x).zone j := fun j => by
    rw [show ((s.withRecord h x').judgeLine).zone j = (s.withRecord h x').zone j from rfl, zone_withRecord, zone_withRecord, position, window]
  simp only [State.overlapsAny, State.pairOverlaps, zones]

/-- A record written and judged, and noted: one record written and judged. -/
theorem judged_setRecordNotice (x : Record) (k : RecordNotice) :
    ((s.withRecord h x).judgeLine).setRecordNotice k h = (s.withRecord h { x with notices := x.notices ||| recordBit k }).judgeLine := by
  have live : ((s.withRecord h x).judgeLine).live h = some x := live_withRecord s h x
  rw [setRecordNotice_live k live, ← withRecord_withRecord s h x { x with notices := x.notices ||| recordBit k }]
  rfl

/-- A fixed record with its fix written and FIX noted. -/
def fixWritten (r : Record) (f : Fix) : Record := { r.writeFix f none with notices := r.notices ||| recordBit .fix }

theorem tableWritesFix_fixed {f : Fix} (live : s.live h = some r) (fixed : r.kind ≠ .roving) :
    s.tableWritesFix h r f =
      if r.reference = none ∧ (s.withRecord h (fixWritten r f)).overlapsAny h.slot = true then
        (s.withRecord h { fixWritten r f with notices := (fixWritten r f).notices ||| recordBit .ambig }).judgeLine
      else (s.withRecord h (fixWritten r f)).judgeLine := by
  have stands : r.isFixed = true := by simp [Record.isFixed, fixed]
  have written : (s.modifyRecord h fun x => x.writeFix f none).setRecordNotice .fix h = (s.withRecord h (fixWritten r f)).judgeLine := by
    rw [modifyRecord_live _ _ live, setRecordNotice_withRecord]
    rfl
  have overlaps := overlapsAny_withRecord (s := s) (h := h) (fixWritten r f) (fixWritten r f) rfl rfl rfl rfl rfl h.slot
  simp only [State.tableWritesFix, stands, if_true, true_and, written, overlaps, judged_setRecordNotice]

/-- The record that the table leaves of a fix delivered to a fixed record, and whether the line has to be judged for it (R21). -/
def fixedTaken (s : State) (h : Handle) (r : Record) (f : Fix) : Record :=
  if r.hold = true ∧ r.fixPending = true then { r with fixOverrun := true }
  else if r.reference = none ∧ (s.withRecord h (fixWritten r f)).overlapsAny h.slot = true then
    { fixWritten r f with notices := (fixWritten r f).notices ||| recordBit .ambig }
  else fixWritten r f

theorem fixedTaken_judged {f : Fix} (live : s.live h = some r) (fixed : r.kind ≠ .roving) (told : LineTellsCondition s) :
    (if r.hold = true ∧ r.fixPending = true then s.modifyRecord h fun r => { r with fixOverrun := true } else s.tableWritesFix h r f) =
      (s.withRecord h (fixedTaken s h r f)).judgeLine := by
  unfold fixedTaken
  split
  · have judged := judgeLine_withRecord s { r with fixOverrun := true } live rfl
    rw [judgeLine_of_told told] at judged
    exact (modifyRecord_live s _ live).trans judged.symm
  · rw [tableWritesFix_fixed live fixed]
    split
    · rfl
    · rfl

/-! ### The scheduler's part (R112, R118, R119) -/

/-- A record whose revisit is satisfied, if it has an entry. -/
def satisfiedRecord (s : State) (h : Handle) (x : Record) : Record :=
  { x with missCount := if (s.entryAt h.slot).isSome then 0 else x.missCount }

theorem satisfyRevisit_judged (x : Record) (f : Fix) :
    ((s.withRecord h x).judgeLine).satisfyRevisit h f =
      takenAs s h (f.composed + timeOfPeriod x.period) (satisfiedRecord s h x) := by
  have live : ((s.withRecord h x).judgeLine).live h = some x := live_withRecord s h x
  have entry : ((s.withRecord h x).judgeLine).entryAt h.slot = s.entryAt h.slot := rfl
  unfold State.satisfyRevisit takenAs satisfiedAt satisfiedRecord
  rw [live, entry]
  cases s.entryAt h.slot with
  | none => rfl
  | some e =>
    have missed := judgeLine_withRecord (s.withRecord h x) { x with missCount := 0 } (live_withRecord s h x) rfl
    rw [withRecord_withRecord] at missed
    dsimp only
    rw [modifyRecord_live _ _ live, ← missed]
    rfl

/-- The record with its drift state written against a reference (R118). -/
def driftWritten (x : Record) (f : Fix) (ref : Reference) : Record :=
  { x with lastDeviation := some (deviationOf f ref), drift := driftOf (deviationOf f ref) x.angleTolerance x.rangeTolerance }

/-- The record after its drift check: DRIFT is noted where the change is reported (R118, R119). -/
def driftChecked (x : Record) (f : Fix) (ref : Reference) : Record :=
  if driftReported x.drift (driftWritten x f ref).drift then { driftWritten x f ref with notices := x.notices ||| recordBit .drift }
  else driftWritten x f ref

theorem driftCheck_taken {x : Record} {ref : Reference} {due : Time} (f : Fix) (referenced : x.reference = some ref) :
    (takenAs s h due x).driftCheck h f = takenAs s h due (driftChecked x f ref) := by
  have written := takenAs_withRecord (s := s) (h := h) due x (driftWritten x f ref) rfl
  have judged : (takenAs s h due x).driftCheck h f =
      if driftReported x.drift (driftWritten x f ref).drift = true
      then ((takenAs s h due x).modifyRecord h (fun r => { r with
        lastDeviation := some (deviationOf f ref), drift := (driftWritten x f ref).drift })).setRecordNotice .drift h
      else (takenAs s h due x).modifyRecord h (fun r => { r with
        lastDeviation := some (deviationOf f ref), drift := (driftWritten x f ref).drift }) := by
    rw [State.driftCheck, takenAs_live]
    simp only [referenced]
    rfl
  rw [judged, modifyRecord_live _ _ (takenAs_live due x)]
  unfold driftChecked
  split
  · exact (congrArg (State.setRecordNotice · .drift h) written).trans (takenAs_setRecordNotice due _ .drift)
  · exact written

theorem driftCheck_unreferenced {x : Record} {due : Time} (f : Fix) (none_ : x.reference = none) :
    (takenAs s h due x).driftCheck h f = takenAs s h due x := by
  rw [State.driftCheck, takenAs_live]
  simp only [none_]

/-- The record after the scheduler's part. -/
def scheduled (s : State) (h : Handle) (x : Record) (f : Fix) : Record :=
  match x.reference with
  | some ref => driftChecked (satisfiedRecord s h x) f ref
  | none => satisfiedRecord s h x

/-- No kind noted changes no notice set. -/
theorem noneNoted (x : BitVec 8) : x ||| 0 = x := BitVec.or_zero

theorem scheduled_referenced {x : Record} {f : Fix} {ref : Reference} (referenced : x.reference = some ref) :
    scheduled s h x f = driftChecked (satisfiedRecord s h x) f ref := by
  rw [scheduled, referenced]

theorem scheduled_unreferenced {x : Record} {f : Fix} (none_ : x.reference = none) : scheduled s h x f = satisfiedRecord s h x := by
  rw [scheduled, none_]

theorem driftReported_iff (old new : DriftState) : driftReported old new = true ↔ old ≠ new ∧ ¬(old = .none ∧ new = .within) := by
  simp [driftReported, imp_iff_not_or]

theorem driftChecked_eq {x : Record} {f : Fix} {ref : Reference} {new : DriftState}
    (drift : driftOf (deviationOf f ref) x.angleTolerance x.rangeTolerance = new) :
    driftChecked x f ref = { x with
      lastDeviation := some (deviationOf f ref), drift := new
      notices := x.notices ||| if x.drift ≠ new ∧ ¬(x.drift = .none ∧ new = .within) then recordBit .drift else 0 } := by
  have written : (driftWritten x f ref).drift = new := drift
  rw [driftChecked, written]
  by_cases reported : x.drift ≠ new ∧ ¬(x.drift = .none ∧ new = .within)
  · rw [if_pos ((driftReported_iff _ _).mpr reported), if_pos reported, driftWritten, drift]
  · rw [if_neg (mt (driftReported_iff _ _).mp reported), if_neg reported, driftWritten, drift]
    simp

theorem deliverFix_fixed {f : Fix} (live : s.live h = some r) (fixed : r.kind ≠ .roving) (told : LineTellsCondition s) :
    s.deliverFix h f = takenAs s h (f.composed + timeOfPeriod r.period) (scheduled s h (fixedTaken s h r f) f) := by
  have stands : r.isFixed = true := by simp [Record.isFixed, fixed]
  have period : (fixedTaken s h r f).period = r.period := by
    unfold fixedTaken
    split
    · rfl
    · split <;> rfl
  rw [State.deliverFix, live]
  dsimp only
  rw [fixedTaken_judged live fixed told, if_pos stands, State.fixToScheduler, satisfyRevisit_judged, period]
  unfold scheduled
  split
  · rename_i ref referenced
    exact driftCheck_taken f referenced
  · rename_i none_
    exact driftCheck_unreferenced f none_

/-! ### The end DONE (R60, R97, R114) -/

/-- An end DONE of a revisit leaves its entry as the fix has placed it (R113). -/
theorem Pursuing.ends_done (serves : Pursuing s g c r) (revisit : g.origin = .revisit) :
    s.quiet.pursuitEnds .done = ((beamGivenUp (s.withRecord c.target (endedAs c r .done))).setPassWanted true).select true := by
  obtain ⟨b, dormant⟩ := serves.dormant .done
  have silent (t : State) (k : Handle) : t.revisitReport k .done = t := by
    unfold State.revisitReport
    split
    · rfl
    · split <;> rfl
  rw [pursuitEnds_granted (s := s.quiet) serves.grant, State.closeRequest, dormant, State.reportEnd, revisit]
  dsimp only
  rw [silent, if_neg nofun, if_neg nofun]
  rfl

/-- An end DONE of the home check sets HOME where the drift state is OUT (R114). -/
theorem Pursuing.ends_checked (serves : Pursuing s g c r) (internal : g.origin = .internal) :
    s.quiet.pursuitEnds .done =
      ((beamGivenUp (if r.drift = .outside then (s.withRecord c.target (endedAs c r .done)).setDeviceNotice .home
        else s.withRecord c.target (endedAs c r .done))).setPassWanted true).select true := by
  obtain ⟨b, dormant⟩ := serves.dormant .done
  have drift : ((beamGivenUp (s.withRecord c.target (endedAs c r .done))).setPassWanted b).driftOut g.handle = decide (r.drift = .outside) := by
    have live : ((beamGivenUp (s.withRecord c.target (endedAs c r .done))).setPassWanted b).live g.handle = some (endedAs c r .done) := by
      rw [← serves.target]
      exact live_withRecord s _ _
    rw [State.driftOut, live]
    rfl
  rw [pursuitEnds_granted (s := s.quiet) serves.grant, State.closeRequest, dormant, State.reportEnd, internal]
  dsimp only
  rw [drift]
  by_cases outside : r.drift = .outside
  · simp only [outside, decide_true, and_self, if_true, reduceCtorEq, or_self, and_false, if_false]
    rfl
  · simp only [outside, decide_false, Bool.false_eq_true, and_false, reduceCtorEq, or_self, if_false]
    rfl

/-! ### The reading as a whole (R60) -/

/-- The context of a reading in LOCKED: no request in flight, and its mark used. -/
def heldContext (c : Context) : Context := { c with rangeInFlight := false, pendingMark := none }

theorem takenAs_quiet (x : Option Context) (due : Time) (y : Record) :
    takenAs (s.quiet.withdrawRange.setContext x) h due y = ((takenAs s h due y).withdrawRange.setContext x).quiet := by
  unfold takenAs satisfiedAt
  have entry : (s.quiet.withdrawRange.setContext x).entryAt h.slot = s.entryAt h.slot := rfl
  rw [entry]
  split
  · rfl
  · rfl

theorem scheduled_quiet (x : Option Context) (f : Fix) :
    scheduled (s.quiet.withdrawRange.setContext x) h (fixedTaken (s.quiet.withdrawRange.setContext x) h r f) f =
      scheduled s h (fixedTaken s h r f) f := rfl

theorem takenAs_fields (due : Time) (x : Record) :
    (takenAs s h due x).arbiter = s.arbiter ∧ (takenAs s h due x).scheduler.passWanted = s.scheduler.passWanted
      ∧ (takenAs s h due x).resetnLow = s.resetnLow ∧ (takenAs s h due x).time = s.time ∧ (takenAs s h due x).ports = s.ports := by
  unfold takenAs satisfiedAt
  split
  · exact ⟨rfl, rfl, rfl, rfl, rfl⟩
  · exact ⟨rfl, rfl, rfl, rfl, rfl⟩

theorem takenAs_others (due : Time) (x : Record) {k : Handle} (other : k.slot ≠ h.slot) : (takenAs s h due x).live k = s.live k := by
  unfold takenAs satisfiedAt
  split
  · exact live_withRecord_other s x other
  · exact live_withRecord_other s x other

theorem takenAs_nothingDue (due : Time) (x : Record) (none_ : NothingDue s) : NothingDue (takenAs s h due x) := by
  unfold takenAs satisfiedAt
  split
  · exact ⟨none_.1, dueSlots_placeEntry (s := s.withRecord h x) none_.2 nofun⟩
  · exact none_

variable {q : RangeRequest} {tag : Byte} {distance quality : Nat} {captured : Direction}

/-- The fix delivered, in an event that has sent nothing before it. -/
theorem Pursuing.delivers_fixed (serves : Pursuing s g c r) (fixed : r.kind ≠ .roving) (told : LineTellsCondition s)
    (last : c.lastCaptured = some captured) (seen : c.latestIntensity = some quality) :
    let f := fixOf s c r distance quality captured
    (s.quiet.withdrawRange.setContext (some (heldContext c))).deliverFix c.target (s.quiet.withdrawRange.composeFix c r distance) =
      ((takenAs s c.target (s.time.count + timeOfPeriod r.period) (scheduled s c.target (fixedTaken s c.target r f) f)).withdrawRange.setContext
        (some (heldContext c))).quiet := by
  have live : (s.quiet.withdrawRange.setContext (some (heldContext c))).live c.target = some r := serves.record
  intro f
  rw [composeFix_eq last seen, show fixOf s.quiet.withdrawRange c r distance quality captured = f from rfl,
    deliverFix_fixed live fixed told, scheduled_quiet, takenAs_quiet]
  rfl

/-- The beam serves the record as the reading has left it. -/
theorem Pursuing.takenAs (serves : Pursuing s g c r) (due : Time) (x : Record) :
    Pursuing ((Machine.takenAs s c.target due x).withdrawRange.setContext (some (heldContext c))) g (heldContext c) x := by
  obtain ⟨arbiter, passes, pin, -, -⟩ := takenAs_fields (s := s) (h := c.target) due x
  exact ⟨pin.trans serves.up, passes.trans serves.calm, (congrArg Arbiter.runMode arbiter).trans serves.running,
    (congrArg Arbiter.grant arbiter).trans serves.grant, rfl, serves.target, serves.origin, takenAs_live due x⟩

theorem lockedReading_done (ends : c.origin = .revisit ∨ c.origin = .internal) :
    s.lockedReading c r distance =
      ((s.setContext (some (heldContext c))).deliverFix c.target (s.composeFix c r distance)).pursuitEnds .done := by
  rcases ends with origin | origin
  · rw [State.lockedReading]
    simp only [origin, heldContext]
  · rw [State.lockedReading]
    simp only [origin, heldContext]

/-- An own event that leaves no trigger and the queue as it was, as a whole. -/
theorem exec_own_calm {i : Instr} {f : State → State} {t : State} (runs : exec i s = s.ownEvent f) (up : s.resetnLow = false)
    (taken : f s.quiet = t) (calm : t.scheduler.passWanted = false) (arbiter : t.arbiter = s.arbiter) : exec i s = .next t := by
  rw [runs, ownEvent_high s _ up, taken]
  exact congrArg _ (settle_calm _ calm (le_of_eq (by rw [arbiter])))

/-- The record of a locked pursuit that has ended DONE. -/
def doneAs (x : Record) : Record := { x with state := .dormant, outcome := .done, lockLatch := false }

theorem endedAs_done (stage : c.stage = .locked) (x : Record) : endedAs (heldContext c) x .done = doneAs x := by
  rw [endedAs, if_pos (show (heldContext c).stage = .locked from stage)]
  rfl

/-- The end DONE rewrites the record that the reading has left. -/
theorem takenAs_doneAs (stage : c.stage = .locked) (due : Time) (x : Record) :
    beamGivenUp (((takenAs s h due x).withdrawRange.setContext (some (heldContext c))).withRecord h (endedAs (heldContext c) x .done)) =
      beamGivenUp (takenAs s h due (doneAs x)) := by
  rw [endedAs_done stage, ← takenAs_withRecord due x (doneAs x) rfl]
  rfl

/-- The end DONE of the home check, with HOME noted where the drift state is OUT. -/
theorem takenAs_checked (stage : c.stage = .locked) (due : Time) (x : Record) :
    beamGivenUp (if x.drift = .outside
      then (((takenAs s h due x).withdrawRange.setContext (some (heldContext c))).withRecord h (endedAs (heldContext c) x .done)).setDeviceNotice .home
      else ((takenAs s h due x).withdrawRange.setContext (some (heldContext c))).withRecord h (endedAs (heldContext c) x .done)) =
      beamGivenUp (if x.drift = .outside then (takenAs s h due (doneAs x)).setDeviceNotice .home else takenAs s h due (doneAs x)) := by
  rw [endedAs_done stage, ← takenAs_withRecord due x (doneAs x) rfl]
  generalize takenAs s h due x = u
  by_cases outside : x.drift = .outside
  · rw [if_pos outside, if_pos outside]
    rfl
  · rw [if_neg outside, if_neg outside]
    rfl

/-- A reading that ends the pursuit DONE gives the beam on. -/
theorem beamGivenOn_of_done {i : Instr} {f : State → State} {due : Time} {x : Record} {t : State} (runs : exec i s = s.ownEvent f)
    (up : s.resetnLow = false) (running : s.arbiter.runMode = .running) (none_ : NothingDue s)
    (ends : f s.quiet = ((beamGivenUp t).setPassWanted true).select true)
    (noted : t = takenAs s h due x ∨ t = (takenAs s h due x).setDeviceNotice .home) : BeamGivenOn i s t h.slot := by
  obtain ⟨arbiter, -, -, time, -⟩ := takenAs_fields (s := s) (h := h) due x
  have nothing := takenAs_nothingDue (s := s) (h := h) due x none_
  have now : (takenAs s h due x).now = s.now := congrArg TimeBase.count time
  have others (k : Handle) (other : k.slot ≠ h.slot) : (takenAs s h due x).live k = s.live k := takenAs_others due x other
  have facts : t.arbiter = s.arbiter ∧ NothingDue t ∧ t.now = s.now ∧ ∀ k : Handle, k.slot ≠ h.slot → t.live k = s.live k := by
    generalize takenAs s h due x = u at arbiter nothing now others noted
    rcases noted with rfl | rfl
    · exact ⟨arbiter, nothing, now, others⟩
    · exact ⟨arbiter, ⟨nothing.1, nothing.2⟩, now, others⟩
  obtain ⟨arbiter', nothing', now', others'⟩ := facts
  exact beamGivenOn_of_select runs up ends ((congrArg Arbiter.runMode arbiter').trans running) nothing' (congrArg Arbiter.queue arbiter')
    (congrArg Arbiter.stack arbiter') now' others'

/-- The fix wait begun, in an event that has sent nothing (R60). -/
theorem fixWait_quiet {t : State} (ports : t.ports = s.ports) (time : t.time = s.time) (n : Nat) :
    ((t.withdrawRange.setContext (some (heldContext c))).quiet).setContext (some { heldContext c with
      fixWait := some (((t.withdrawRange.setContext (some (heldContext c))).quiet).now + timeOfMs n) }) =
      sentNothing { t with
        ports := { s.ports with outstanding := none }
        pursuit := some { c with rangeInFlight := false, pendingMark := none, fixWait := some (s.time.count + BitVec.ofNat 48 (n * 1000)) } } := by
  rw [← ports, ← time]
  rfl

/-- What a reading of a LOCKED fixed record leaves, by the request's origin. -/
theorem Pursuing.reading_fixed (serves : Pursuing s g c r) (asked : s.ports.outstanding = some q) (same : q.tag = tag) (stage : c.stage = .locked)
    (fixed : r.kind ≠ .roving) (told : LineTellsCondition s) (last : c.lastCaptured = some captured) (seen : c.latestIntensity = some quality)
    {x : Record} (left : scheduled s c.target (fixedTaken s c.target r (fixOf s c r distance quality captured))
      (fixOf s c r distance quality captured) = x) :
    let after := Machine.takenAs s c.target (s.time.count + timeOfPeriod r.period)
    let done := after (doneAs x)
    let givenOn (t : State) := BeamGivenOn (.reading tag distance) s t c.target.slot
    (g.origin = .revisit → NothingDue s → givenOn done)
      ∧ (g.origin = .internal → NothingDue s → givenOn (if x.drift = .outside then done.setDeviceNotice .home else done))
      ∧ (g.origin = .station ∨ g.origin = .pendant → r.params.fixInterval = 0 →
          exec (.reading tag distance) s = .next (rangeAsked { after x with
            pursuit := some { c with rangeInFlight := true, pendingMark := none } }))
      ∧ (g.origin = .station ∨ g.origin = .pendant → r.params.fixInterval ≠ 0 →
          exec (.reading tag distance) s = .next (sentNothing { after x with
            ports := { s.ports with outstanding := none }
            pursuit := some { c with
              rangeInFlight := false, pendingMark := none
              fixWait := some (s.time.count + BitVec.ofNat 48 (r.params.fixInterval * 1000)) } })) := by
  intro after done givenOn
  have delivered := serves.delivers_fixed (distance := distance) fixed told last seen
  dsimp only at delivered
  rw [left] at delivered
  have reads := (takeReading_current (s := s.quiet) (distance := distance) asked same).trans (serves.quiet.withdrawRange.pursuitReading_locked stage)
  have serves' := serves.takenAs (s.time.count + timeOfPeriod r.period) x
  obtain ⟨arbiter, passes, -, time, ports⟩ := takenAs_fields (s := s) (h := c.target) (s.time.count + timeOfPeriod r.period) x
  have runs := exec_reading s tag distance
  refine ⟨fun revisit none_ => ?_, fun internal none_ => ?_, fun plain zero => ?_, fun plain wait => ?_⟩
  · have ends := reads.trans (lockedReading_done (.inl (serves.origin.trans revisit)))
    rw [delivered, serves'.ends_done revisit, show (heldContext c).target = c.target from rfl, takenAs_doneAs stage] at ends
    exact beamGivenOn_of_done runs serves.up serves.running none_ ends (.inl rfl)
  · have ends := reads.trans (lockedReading_done (.inr (serves.origin.trans internal)))
    rw [delivered, serves'.ends_checked internal, show (heldContext c).target = c.target from rfl, takenAs_checked stage] at ends
    refine beamGivenOn_of_done (x := doneAs x) (due := s.time.count + timeOfPeriod r.period) runs serves.up serves.running none_ ends ?_
    split
    · exact .inr rfl
    · exact .inl rfl
  all_goals
    rw [← serves.origin] at plain
    have asks := reads.trans (lockedReading_plain plain)
    dsimp only at asks
    rw [show s.quiet.withdrawRange.setContext (some { c with rangeInFlight := false, pendingMark := none }) =
      s.quiet.withdrawRange.setContext (some (heldContext c)) from rfl, delivered] at asks
  · exact exec_own_calm runs serves.up (asks.trans (if_pos zero)) (passes.trans serves.calm) arbiter
  · exact exec_own_calm runs serves.up (asks.trans ((if_neg wait).trans (fixWait_quiet ports time _))) (passes.trans serves.calm) arbiter

end Sys2Proof.Machine

open Sys2Proof Sys2Proof.Machine

/-- Settles O50: the record that the table and the scheduler leave of the fix, case by case, and then the end or the next request. -/
theorem fixedRecordsAreCheckedForDrift : Obligations.FixedRecordsAreCheckedForDrift := by
  intro s tag distance quality g c r q captured serves asked same stage fixed last seen told f discarded taken
    left satisfied after ends
  have reads {x : Record} (become : scheduled s c.target (fixedTaken s c.target r f) f = x) : ends x :=
    serves.reading_fixed asked same stage fixed told last seen become
  refine ⟨fun ref new referenced => ?_, fun none_ => ?_⟩
  · intro d outside isOut isWithin driftBit
    have drift : driftOf d r.angleTolerance r.rangeTolerance = new := by
      by_cases out : outside
      · exact (if_pos out).trans (isOut out).symm
      · exact (if_neg out).trans (isWithin out).symm
    refine reads ?_
    by_cases away : discarded
    · have kept : fixedTaken s c.target r f = { r with fixOverrun := true } := if_pos away
      rw [kept, scheduled_referenced (x := { r with fixOverrun := true }) referenced,
        driftChecked_eq (x := satisfiedRecord s c.target { r with fixOverrun := true }) (f := f) drift, if_pos away]
      rfl
    · have written : fixedTaken s c.target r f = fixWritten r f :=
        (if_neg away).trans (if_neg fun both => Option.some_ne_none ref (referenced.symm.trans both.1))
      rw [written, scheduled_referenced (x := fixWritten r f) referenced,
        driftChecked_eq (x := satisfiedRecord s c.target (fixWritten r f)) (f := f) drift, if_neg away]
      rfl
  · intro overlaps
    have test : overlaps ↔ (s.withRecord c.target (fixWritten r f)).overlapsAny c.target.slot = true := by
      rw [← overlapsAny_withRecord (fixWritten r f) (taken 0) rfl rfl rfl rfl rfl]
      exact (overlapsAny_iff _ _).symm
    refine ⟨fun away => reads ?_, fun kept there => reads ?_, fun kept clear => reads ?_⟩
    · have kept : fixedTaken s c.target r f = { r with fixOverrun := true } := if_pos away
      rw [kept, scheduled_unreferenced (x := { r with fixOverrun := true }) none_]
      simp only [left, noneNoted]
      rfl
    · have written : fixedTaken s c.target r f = { fixWritten r f with notices := (fixWritten r f).notices ||| recordBit .ambig } :=
        (if_neg kept).trans (if_pos ⟨none_, test.mp there⟩)
      rw [written, scheduled_unreferenced (x := { fixWritten r f with notices := (fixWritten r f).notices ||| recordBit .ambig }) none_]
      rfl
    · have written : fixedTaken s c.target r f = fixWritten r f := (if_neg kept).trans (if_neg fun both => clear (test.mpr both.2))
      rw [written, scheduled_unreferenced (x := fixWritten r f) none_]
      simp only [taken, noneNoted]
      rfl

end


section
/-! RELEASE and RETIRE of a record that has a request (R76, R88, R93, R95, R113): what is removed and told, and what becomes of the beam. -/

namespace Sys2Proof.Machine

variable {s t : State} {h : Handle} {r : Record} {i : Instr} {x : Response}

/-! ### A command's state and its answer -/

/-- A command that leaves t, with what t sends. -/
theorem respond_atRise_of_link (link : t.link = s.link) : (t.atRise i).respond x = answeredBy s i x t := by
  rw [respond_atRise, answeredBy, answeredBy, link]

/-- The beam left, with what was sent before: no context, an empty grant, the range request withdrawn. -/
def beamLeft (t : State) : State := ((t.setContext none).withdrawRange).setGrant none

/-- A state with nothing sent and a link. -/
def onLink (t : State) (l : StationLink) : State := { t with ports := { t.ports with driveOut := [], rangeOut := [] }, link := l }

theorem atRise_onLink : t.atRise i = onLink t (t.atRise i).link := rfl

theorem sendHalt_beamLeft (l : StationLink) : (beamLeft (onLink t l)).sendHalt = { beamFreed t with link := l } := rfl

theorem slewedTo_beamLeft (l : StationLink) (q : Request) (rq : Record) (d : Direction) (queue : List QueueEntry) (stack : List Request) :
    slewedTo (beamLeft (onLink t l)) q rq d queue stack = { beamPassed t q rq d queue stack with link := l } := rfl

theorem respond_onRiseLink {u : State} (link : t.link = s.link) :
    State.respond { u with link := (t.atRise i).link } x = answeredWith s i x u := by
  have own : State.respond { u with link := (t.atRise i).link } x = answeredWith t i x u := rfl
  rw [own, answeredWith, answeredWith, answeredBy, answeredBy, link]

/-- Where nothing waits a beam left is freed with HALT. -/
theorem left_freed {n : Nat} {b : Bool} (l : StationLink) (running : t.arbiter.runMode = .running) (none_ : NothingDue t) (queue : t.arbiter.queue = [])
    (stack : t.arbiter.stack = []) :
    (((beamLeft (onLink t l)).setPassWanted b).select true).settle n = { beamFreed t with link := l } := by
  have freed := select_none (s := (beamLeft (onLink t l)).setPassWanted b) rfl running queue stack
  rw [freed]
  exact settled_calm (t := { beamFreed t with link := l }) none_.2 none_.1 b

/-- Else it passes to the request that selection takes. -/
theorem left_passed {n : Nat} {b : Bool} (l : StationLink) {q : Request} {queue : List QueueEntry} {stack : List Request} {rq : Record} {d : Direction}
    (running : t.arbiter.runMode = .running) (none_ : NothingDue t) (takes : Selects t.arbiter q queue stack)
    (distinct : QueueDistinct t.arbiter.queue) (live : t.live q.handle = some rq) (predicted : rq.prediction q.aim t.now = some d) :
    (((beamLeft (onLink t l)).setPassWanted b).select true).settle n = { beamPassed t q rq d queue stack with link := l } := by
  obtain ⟨b', slewed⟩ := select_slews (s := (beamLeft (onLink t l)).setPassWanted b) true rfl running takes distinct live predicted
  rw [slewed]
  exact settled_calm (t := { beamPassed t q rq d queue stack with link := l }) none_.2 none_.1 b'

/-- A settled command whose taking leaves no entry DUE, and t but for the trigger. -/
theorem station_settles {take : State → State × Response} {a : Answer} {b : Bool} (up : s.resetnLow = false)
    (taken : take (s.atRise i) = ((t.atRise i).setPassWanted b, noPayload a)) (due : t.dueSlots = []) (calm : t.scheduler.passWanted = false)
    (link : t.link = s.link) : s.station i (settled take) = .next (answeredBy s i (noPayload a) t) := by
  rw [station_high s _ _ up, settled, taken]
  dsimp only
  rw [settled_calm (t := t.atRise i) due calm, respond_atRise_of_link link]

/-- A settled command that gives the beam up, where nothing waits. -/
theorem station_frees {take : State → State × Response} {a : Answer} {b : Bool} (up : s.resetnLow = false)
    (taken : take (s.atRise i) = (((beamLeft (t.atRise i)).setPassWanted b).select true, noPayload a)) (running : t.arbiter.runMode = .running)
    (none_ : NothingDue t) (queue : t.arbiter.queue = []) (stack : t.arbiter.stack = []) (link : t.link = s.link) :
    s.station i (settled take) = .next (answeredWith s i (noPayload a) (beamFreed t)) := by
  rw [station_high s _ _ up, settled, taken, atRise_onLink]
  dsimp only
  rw [left_freed _ running none_ queue stack, respond_onRiseLink link]

/-- A settled command that gives the beam up to a request that waits. -/
theorem station_passes {take : State → State × Response} {a : Answer} {b : Bool} {q : Request} {queue : List QueueEntry} {stack : List Request}
    {rq : Record} {d : Direction} (up : s.resetnLow = false)
    (taken : take (s.atRise i) = (((beamLeft (t.atRise i)).setPassWanted b).select true, noPayload a)) (running : t.arbiter.runMode = .running)
    (none_ : NothingDue t) (takes : Selects t.arbiter q queue stack) (distinct : QueueDistinct t.arbiter.queue) (live : t.live q.handle = some rq)
    (predicted : rq.prediction q.aim t.now = some d) (link : t.link = s.link) :
    s.station i (settled take) = .next (answeredWith s i (noPayload a) (beamPassed t q rq d queue stack)) := by
  rw [station_high s _ _ up, settled, taken, atRise_onLink]
  dsimp only
  rw [left_passed _ running none_ takes distinct live predicted, respond_onRiseLink link]

/-! ### A removed request reported (R93, R113) -/

/-- What the scheduler makes of a record's removed request: the OFFERED entry of a REVISIT one is due one period from now. -/
def toldRemoved (s t : State) (h : Handle) (r : Record) (q : Request) : State :=
  match s.entryAt h.slot with
  | some e =>
    if q.origin = .revisit ∧ e.status = .offered then
      t.placeEntry { handle := h, due := s.time.count + BitVec.ofNat 48 (r.period * 1000000), status := .scheduled }
    else t
  | none => t

/-- What holds of both outcomes holds of what is told. -/
theorem toldRemoved_induction {p : State → Prop} {q : Request} (kept : p t)
    (placed : p (t.placeEntry { handle := h, due := s.time.count + BitVec.ofNat 48 (r.period * 1000000), status := .scheduled })) :
    p (toldRemoved s t h r q) := by
  unfold toldRemoved
  split
  · split
    · exact placed
    · exact kept
  · exact kept

/-- Only the end of a REVISIT request changes an entry. -/
theorem toldRemoved_of_other {q : Request} (other : q.origin ≠ .revisit) : toldRemoved s t h r q = t := by
  unfold toldRemoved
  split
  · exact if_neg fun both => other both.1
  · rfl

theorem revisitReport_released (live : s.live h = some r) {q : Request} (revisit : q.origin = .revisit) :
    s.revisitReport h .released = toldRemoved s s h r q := by
  unfold toldRemoved
  rw [State.revisitReport]
  cases s.entryAt h.slot with
  | none => rfl
  | some e =>
    dsimp only
    by_cases offered : e.status = .offered
    · rw [if_pos offered, if_pos ⟨revisit, offered⟩, live]
      rfl
    · rw [if_neg offered, if_neg fun both => offered both.2]

theorem reportEnd_released {q : Request} (live : s.live h = some r) (same : q.handle = h) :
    ∃ b, s.reportEnd q .released = (toldRemoved s s h r q).setPassWanted b := by
  cases origin : q.origin with
  | station =>
    refine ⟨s.scheduler.passWanted, ?_⟩
    rw [State.reportEnd, origin, toldRemoved_of_other (by simp [origin])]
    rfl
  | pendant =>
    refine ⟨s.scheduler.passWanted, ?_⟩
    rw [State.reportEnd, origin, toldRemoved_of_other (by simp [origin])]
    rfl
  | internal =>
    refine ⟨true, ?_⟩
    rw [State.reportEnd, origin, toldRemoved_of_other (by simp [origin])]
    dsimp only
    rw [if_neg (by simp), if_neg (by simp)]
  | revisit =>
    refine ⟨true, ?_⟩
    rw [State.reportEnd, origin, same]
    dsimp only
    rw [revisitReport_released live origin, if_neg (by simp)]

/-- The record made DORMANT with outcome RELEASED. -/
def releasedAs (r : Record) : Record := { r with state := .dormant, outcome := .released }

/-- A request taken off the beam and its record released: what is left but for the trigger. -/
theorem released_told {q : Request} (live : t.live h = some r) (same : q.handle = h) :
    ∃ b, (t.toDormant h .released).reportEnd q .released = (toldRemoved t (t.withRecord h (releasedAs r)) h r q).setPassWanted b := by
  obtain ⟨b, dormant⟩ := toDormant_live live .released
  obtain ⟨b', told⟩ := reportEnd_released (s := (t.withRecord h (releasedAs r)).setPassWanted b) (r := releasedAs r) (live_withRecord t h _) same
  refine ⟨b', (congrArg (State.reportEnd · q .released) dormant).trans (told.trans ?_)⟩
  unfold toldRemoved
  have entry : ((t.withRecord h (releasedAs r)).setPassWanted b).entryAt h.slot = t.entryAt h.slot := rfl
  rw [entry]
  split
  · split
    · rfl
    · rfl
  · rfl

/-! ### RELEASE (R93) -/

theorem exec_release (slot gen : Byte) : exec (.release slot gen) s = s.station (.release slot gen) (settled (takeRelease slot gen)) := rfl

theorem takeRelease_live {slot gen : Byte} (ok : s.lookup slot gen = .ok (h, r)) :
    takeRelease slot gen s = ((s.releaseRecord h r).1, noPayload (s.releaseRecord h r).2) := by
  rw [takeRelease, ok]
  rfl

theorem takeRelease_atRise {slot gen : Byte} (ok : s.lookup slot gen = .ok (h, r)) :
    takeRelease slot gen (s.atRise i) = (((s.atRise i).releaseRecord h r).1, noPayload ((s.atRise i).releaseRecord h r).2) := by
  have ok' : (s.atRise i).lookup slot gen = .ok (h, r) := ok
  exact takeRelease_live ok'

theorem releaseRecord_dormant (state : r.state = .dormant) : s.releaseRecord h r = (s, .already) := by
  rw [State.releaseRecord, state]

theorem releaseRecord_queued {e : QueueEntry} (state : r.state = .queued) (queued : s.queuedAt h.slot = some e) :
    s.releaseRecord h r =
      (((s.setQueue (withoutQueued h.slot s.arbiter.queue)).toDormant h .released).reportEnd e.request .released, .ok) := by
  rw [State.releaseRecord, state]
  dsimp only
  rw [queued]

theorem releaseRecord_suspended {q : Request} (state : r.state = .suspended) (stacked : s.stackedAt h.slot = some q) :
    s.releaseRecord h r =
      (((s.setStack (withoutStacked h.slot s.arbiter.stack)).toDormant h .released).reportEnd q .released, .ok) := by
  rw [State.releaseRecord, state]
  dsimp only
  rw [stacked]

theorem releaseRecord_active {st : Stage} {g : Request} (state : r.state = .active st) (granted : s.arbiter.grant = some g) :
    s.releaseRecord h r = (((((s.endPursuit false).setGrant none).toDormant h .released).reportEnd g .released).select true, .ok) := by
  rw [State.releaseRecord, state]
  dsimp only
  rw [granted]

theorem endPursuit_false {c : Context} (pursued : s.pursuit = some c) : s.endPursuit false = (s.setContext none).withdrawRange := by
  rw [State.endPursuit, pursued]
  exact if_neg fun both => Bool.false_ne_true both.1

theorem toldRemoved_link {q : Request} (link : t.link = s.link) : (toldRemoved s t h r q).link = s.link :=
  toldRemoved_induction (p := fun u => u.link = s.link) link link

theorem toldRemoved_nothingDue {q : Request} (none_ : NothingDue t) : NothingDue (toldRemoved s t h r q) :=
  toldRemoved_induction (p := NothingDue) none_ ⟨none_.1, dueSlots_placeEntry none_.2 nofun⟩

theorem toldRemoved_arbiter {q : Request} : (toldRemoved s t h r q).arbiter = t.arbiter :=
  toldRemoved_induction (p := fun u => u.arbiter = t.arbiter) rfl rfl

theorem toldRemoved_now {q : Request} : (toldRemoved s t h r q).now = t.now :=
  toldRemoved_induction (p := fun u => u.now = t.now) rfl rfl

theorem toldRemoved_live {q : Request} (k : Handle) : (toldRemoved s t h r q).live k = t.live k :=
  toldRemoved_induction (p := fun u => u.live k = t.live k) rfl rfl

/-- The part with a record released and its removed request told. -/
def releasedFrom (s : State) (h : Handle) (r : Record) (q : Request) : State := toldRemoved s (s.withRecord h (releasedAs r)) h r q

theorem releasedFrom_atRise (j : Instr) (q : Request) : releasedFrom (s.atRise j) h r q = (releasedFrom s h r q).atRise j := by
  unfold releasedFrom toldRemoved
  have entry : (s.atRise j).entryAt h.slot = s.entryAt h.slot := rfl
  rw [entry]
  split
  · split
    · rfl
    · rfl
  · rfl

/-- The collections do not show in what is told. -/
theorem releasedFrom_setArbiter (a : Arbiter) (q : Request) :
    toldRemoved { s with arbiter := a } (State.withRecord { s with arbiter := a } h (releasedAs r)) h r q =
      { releasedFrom s h r q with arbiter := a } := by
  unfold releasedFrom toldRemoved
  have entry : State.entryAt { s with arbiter := a } h.slot = s.entryAt h.slot := rfl
  rw [entry]
  split
  · split
    · rfl
    · rfl
  · rfl

theorem releasedFrom_beamLeft (q : Request) :
    toldRemoved (beamLeft s) ((beamLeft s).withRecord h (releasedAs r)) h r q = beamLeft (releasedFrom s h r q) := by
  unfold releasedFrom toldRemoved
  have entry : (beamLeft s).entryAt h.slot = s.entryAt h.slot := rfl
  rw [entry]
  split
  · split
    · rfl
    · rfl
  · rfl

theorem release_queued {slot gen : Byte} {e : QueueEntry} (up : s.resetnLow = false) (none_ : NothingDue s) (ok : s.lookup slot gen = .ok (h, r))
    (state : r.state = .queued) (queued : s.queuedAt h.slot = some e) (same : e.request.handle = h) :
    exec (.release slot gen) s = .next (answeredBy s (.release slot gen) (noPayload .ok)
      ((releasedFrom s h r e.request).setQueue (withoutQueued h.slot s.arbiter.queue))) := by
  have live : (s.atRise (.release slot gen)).live h = some r := lookup_live _ ok
  obtain ⟨b, told⟩ := released_told (t := (s.atRise (.release slot gen)).setQueue (withoutQueued h.slot s.arbiter.queue)) live same
  rw [exec_release]
  have rest : NothingDue (releasedFrom s h r e.request) := toldRemoved_nothingDue none_
  have link : (releasedFrom s h r e.request).link = s.link := toldRemoved_link rfl
  have arbiter : (releasedFrom s h r e.request).arbiter = s.arbiter := toldRemoved_arbiter
  refine station_settles (b := b) up ?_ rest.2 rest.1 link
  rw [takeRelease_atRise ok, releaseRecord_queued (s := s.atRise (.release slot gen)) state queued]
  refine congrArg (fun u => (u, noPayload .ok)) (told.trans (congrArg (State.setPassWanted · b) ?_))
  exact (releasedFrom_setArbiter (s := s.atRise (.release slot gen)) _ _).trans (by rw [releasedFrom_atRise, State.setQueue, arbiter]; rfl)

theorem release_suspended {slot gen : Byte} {q : Request} (up : s.resetnLow = false) (none_ : NothingDue s) (ok : s.lookup slot gen = .ok (h, r))
    (state : r.state = .suspended) (stacked : s.stackedAt h.slot = some q) (same : q.handle = h) :
    exec (.release slot gen) s = .next (answeredBy s (.release slot gen) (noPayload .ok)
      ((releasedFrom s h r q).setStack (withoutStacked h.slot s.arbiter.stack))) := by
  have live : (s.atRise (.release slot gen)).live h = some r := lookup_live _ ok
  obtain ⟨b, told⟩ := released_told (t := (s.atRise (.release slot gen)).setStack (withoutStacked h.slot s.arbiter.stack)) live same
  rw [exec_release]
  have rest : NothingDue (releasedFrom s h r q) := toldRemoved_nothingDue none_
  have link : (releasedFrom s h r q).link = s.link := toldRemoved_link rfl
  have arbiter : (releasedFrom s h r q).arbiter = s.arbiter := toldRemoved_arbiter
  refine station_settles (b := b) up ?_ rest.2 rest.1 link
  rw [takeRelease_atRise ok, releaseRecord_suspended (s := s.atRise (.release slot gen)) state stacked]
  refine congrArg (fun u => (u, noPayload .ok)) (told.trans (congrArg (State.setPassWanted · b) ?_))
  exact (releasedFrom_setArbiter (s := s.atRise (.release slot gen)) _ _).trans (by rw [releasedFrom_atRise, State.setStack, arbiter]; rfl)

theorem endPursuit_left {c : Context} (pursued : s.pursuit = some c) : (s.endPursuit false).setGrant none = beamLeft s := by
  rw [endPursuit_false pursued]
  rfl

/-- What RELEASE of an ACTIVE record makes of the part: the record released and told, the beam given up, and selection. -/
theorem takeRelease_active {slot gen : Byte} {st : Stage} {g : Request} {c : Context} (ok : s.lookup slot gen = .ok (h, r))
    (state : r.state = .active st) (granted : s.arbiter.grant = some g) (same : g.handle = h) (pursued : s.pursuit = some c) :
    ∃ b, takeRelease slot gen (s.atRise i) = (((beamLeft ((releasedFrom s h r g).atRise i)).setPassWanted b).select true, noPayload .ok) := by
  have live : (beamLeft (s.atRise i)).live h = some r := lookup_live _ ok
  obtain ⟨b, told⟩ := released_told live same
  refine ⟨b, ?_⟩
  rw [takeRelease_atRise ok, releaseRecord_active (s := s.atRise i) state granted, endPursuit_left (s := s.atRise i) pursued, told,
    releasedFrom_beamLeft, releasedFrom_atRise]

/-! ### A winner without a prediction (R39) -/

/-- The part with a record's end LOST noted and judged. -/
def lostOf (s : State) (h : Handle) (r : Record) : State := (s.withRecord h (lostAs r)).judgeLine

theorem setGrant_none_same (free : s.arbiter.grant = none) : s.setGrant none = s := by
  rw [← free]
  rfl

theorem lostAtGrant_plain {q : Request} (free : s.arbiter.grant = none) (live : s.live q.handle = some r)
    (plain : q.origin = .station ∨ q.origin = .pendant) : ∃ b, s.lostAtGrant q = (lostOf s q.handle r).setPassWanted b := by
  obtain ⟨b, dormant⟩ := toDormant_live (s := (s.withRecord q.handle { r with notices := r.notices ||| recordBit .lost }).judgeLine)
    (live_withRecord s _ _) .lost
  refine ⟨b, ?_⟩
  have noted := judgeLine_withRecord (s.withRecord q.handle { r with notices := r.notices ||| recordBit .lost }) (lostAs r)
    (live_withRecord s _ _) rfl
  rw [withRecord_withRecord] at noted
  have free' : (s.withRecord q.handle { r with notices := r.notices ||| recordBit .lost }).judgeLine.arbiter.grant = none := free
  rw [State.lostAtGrant, setRecordNotice_live .lost live, State.closeRequest, if_neg (by rcases plain with o | o <;> simp [o]),
    setGrant_none_same free', dormant, State.reportEnd, lostOf, noted]
  rcases plain with origin | origin
  · rw [origin]
    rfl
  · rw [origin]
    rfl

/-- Selection of a plain request without a prediction loses its record; nothing else waits, and HALT is sent. -/
theorem select_loses {q : Request} (free : s.arbiter.grant = none) (running : s.arbiter.runMode = .running) (takes : Selects s.arbiter q [] [])
    (distinct : QueueDistinct s.arbiter.queue) (live : s.live q.handle = some r) (lost : r.prediction q.aim s.now = none)
    (plain : q.origin = .station ∨ q.origin = .pendant) :
    ∃ b, s.select true = (((lostOf s q.handle r).setQueue []).setStack []).sendHalt.setPassWanted b := by
  obtain ⟨b, won⟩ := pickWinner_leaves takes distinct
  obtain ⟨b', left⟩ := lostAtGrant_plain (s := ((s.setQueue []).setStack []).setPassWanted b) free live plain
  refine ⟨b', ?_⟩
  have aimed : (((s.setQueue []).setStack []).setPassWanted b).predictionFor q s.now = none := by
    have live' : (((s.setQueue []).setStack []).setPassWanted b).live q.handle = some r := live
    rw [State.predictionFor, live']
    exact lost
  rw [State.select, if_pos ⟨by rw [free]; rfl, running⟩]
  obtain ⟨m, more⟩ : ∃ m, s.arbiter.queue.length + s.arbiter.stack.length = m + 1 := by
    refine Nat.exists_eq_add_one.mpr ?_
    rcases takes with ⟨top, -⟩ | ⟨-, -, -, e, waits, -⟩
    · rw [top, List.length_cons]; omega
    · have := List.length_pos_of_mem waits; omega
  rw [more, selectLoop, won]
  dsimp only
  rw [show (((s.setQueue []).setStack []).setPassWanted b).now = s.now from rfl, aimed]
  dsimp only
  rw [left]
  cases m with
  | zero => rfl
  | succ m => rfl

/-- A beam left whose one waiting request ends LOST is freed with HALT. -/
theorem left_loses {n : Nat} {b : Bool} (l : StationLink) {q : Request} {rq : Record} (running : t.arbiter.runMode = .running)
    (none_ : NothingDue t) (takes : Selects t.arbiter q [] []) (distinct : QueueDistinct t.arbiter.queue) (live : t.live q.handle = some rq)
    (lost : rq.prediction q.aim t.now = none) (plain : q.origin = .station ∨ q.origin = .pendant) :
    (((beamLeft (onLink t l)).setPassWanted b).select true).settle n =
      { beamFreed (((lostOf t q.handle rq).setQueue []).setStack []) with link := l } := by
  obtain ⟨b', ends⟩ := select_loses (s := (beamLeft (onLink t l)).setPassWanted b) rfl running takes distinct live lost plain
  rw [ends]
  exact settled_calm (t := { beamFreed (((lostOf t q.handle rq).setQueue []).setStack []) with link := l }) none_.2 none_.1 b'

/-- A settled command that gives the beam up, where the one request that waits ends LOST. -/
theorem station_loses {take : State → State × Response} {a : Answer} {b : Bool} {q : Request} {rq : Record} (up : s.resetnLow = false)
    (taken : take (s.atRise i) = (((beamLeft (t.atRise i)).setPassWanted b).select true, noPayload a)) (running : t.arbiter.runMode = .running)
    (none_ : NothingDue t) (takes : Selects t.arbiter q [] []) (distinct : QueueDistinct t.arbiter.queue) (live : t.live q.handle = some rq)
    (lost : rq.prediction q.aim t.now = none) (plain : q.origin = .station ∨ q.origin = .pendant) (link : t.link = s.link) :
    s.station i (settled take) = .next (answeredWith s i (noPayload a) (beamFreed (((lostOf t q.handle rq).setQueue []).setStack []))) := by
  rw [station_high s _ _ up, settled, taken, atRise_onLink]
  dsimp only
  rw [left_loses _ running none_ takes distinct live lost plain, respond_onRiseLink link]

end Sys2Proof.Machine

open Sys2Proof Sys2Proof.Machine

/-- Settles O28: the removed record is released and its request told to the scheduler; a beam given up is freed, or passes to what selection takes. -/
theorem releaseGivesUp : Obligations.ReleaseGivesUp := by
  unfold Obligations.ReleaseGivesUp
  intro s slot gen h r up none_ ok i t told
  have toldIs (q : Request) : told q = releasedFrom s h r q := rfl
  refine ⟨fun state => ?_, fun e state queued same => release_queued up none_ ok state queued same,
    fun q state stacked same => release_suspended up none_ ok state stacked same, fun st g c state granted same pursued running => ?_⟩
  · refine station_settles (b := s.scheduler.passWanted) up ?_ none_.2 none_.1 rfl
    rw [takeRelease_atRise ok, releaseRecord_dormant state]
    rfl
  · obtain ⟨b, taken⟩ := takeRelease_active (i := i) ok state granted same pursued
    rw [toldIs]
    have rest : NothingDue (releasedFrom s h r g) := toldRemoved_nothingDue none_
    have link : (releasedFrom s h r g).link = s.link := toldRemoved_link rfl
    have arbiter : (releasedFrom s h r g).arbiter = s.arbiter := toldRemoved_arbiter
    have now : (releasedFrom s h r g).now = s.now := toldRemoved_now
    have lives (k : Handle) (other : k.slot ≠ h.slot) : (releasedFrom s h r g).live k = s.live k :=
      (toldRemoved_live k).trans (live_withRecord_other s _ other)
    generalize releasedFrom s h r g = u at taken rest link arbiter now lives ⊢
    refine ⟨fun noQueue noStack => ?_, fun q queue stack rq takes distinct other live => ⟨fun d predicted => ?_, fun lost noQueue noStack plain => ?_⟩⟩
    · exact station_frees up taken (by rw [arbiter]; exact running) rest (by rw [arbiter]; exact noQueue) (by rw [arbiter]; exact noStack) link
    · exact station_passes up taken (by rw [arbiter]; exact running) rest (by rw [arbiter]; exact takes) (by rw [arbiter]; exact distinct)
        ((lives _ other).trans live) (by rw [now]; exact predicted) link
    · subst noQueue noStack
      exact station_loses up taken (by rw [arbiter]; exact running) rest (by rw [arbiter]; exact takes) (by rw [arbiter]; exact distinct)
        ((lives _ other).trans live) (by rw [now]; exact lost) plain link
end


section
/-! The revisit list gets no new entry from the arbiter or the scheduler: entries are placed for listed records only (R103 to R114). -/

namespace Sys2Proof.Machine

variable {s t u : State} {h : Handle} {r : Record}

theorem entryAt_eq_none_iff {i : Fin 48} : s.entryAt i = none ↔ ∀ e ∈ s.scheduler.entries, e.handle.slot ≠ i := by
  simp [State.entryAt]

/-- Every slot with an entry in t has one in s. -/
def NoNewEntry (s t : State) : Prop := ∀ i, s.entryAt i = none → t.entryAt i = none

namespace NoNewEntry

theorem refl (s : State) : NoNewEntry s s := fun _ => id

theorem trans (a : NoNewEntry s t) (b : NoNewEntry t u) : NoNewEntry s u := fun i free => b i (a i free)

theorem of_entries (same : t.scheduler.entries = s.scheduler.entries) : NoNewEntry s t := fun i free => by
  rw [entryAt_eq_none_iff] at free ⊢
  rw [same]
  exact free

theorem ite {c : Prop} [Decidable c] (a : NoNewEntry s t) (b : NoNewEntry s u) : NoNewEntry s (if c then t else u) := by
  split
  · exact a
  · exact b

theorem placeEntry {e : RevisitEntry} (listed : s.entryAt e.handle.slot ≠ none) : NoNewEntry s (s.placeEntry e) := fun i free => by
  rw [entryAt_eq_none_iff] at free ⊢
  intro x mem
  rcases mem_insertEntry.mp mem with rfl | kept
  · exact fun same => listed (same ▸ entryAt_eq_none_iff.mpr free)
  · exact free x (List.mem_filter.mp kept).1

/-- A change of entries in their places. -/
theorem map {f : RevisitEntry → RevisitEntry} (same : ∀ e, (f e).handle = e.handle) : NoNewEntry s (s.setEntries (s.scheduler.entries.map f)) :=
  fun i free => by
    rw [entryAt_eq_none_iff] at free ⊢
    intro x mem
    obtain ⟨e, old, rfl⟩ := List.mem_map.mp mem
    rw [same]
    exact free e old

theorem setEntryStatus (i : Fin 48) (st : RevisitStatus) : NoNewEntry s (s.setEntryStatus i st) := map fun e => by
  split
  · rfl
  · rfl

end NoNewEntry

/-! ### Ends and grants -/

theorem modifyRecord_entries (f : Record → Record) : (s.modifyRecord h f).scheduler.entries = s.scheduler.entries := by simp

theorem setPassWanted_entries (b : Bool) : (s.setPassWanted b).scheduler.entries = s.scheduler.entries := rfl

theorem toDormant_entries (o : EndOutcome) : (s.toDormant h o).scheduler.entries = s.scheduler.entries := by
  unfold State.toDormant
  dsimp only
  split
  · split
    · exact modifyRecord_entries _
    · exact modifyRecord_entries _
  · exact modifyRecord_entries _

theorem setRecordNotice_entries (k : RecordNotice) : (s.setRecordNotice k h).scheduler.entries = s.scheduler.entries := modifyRecord_entries _

theorem miss_noNewEntry (listed : s.entryAt h.slot ≠ none) : NoNewEntry s (s.miss h) := by
  unfold State.miss
  split
  · refine .trans (.of_entries (t := State.setRecordNotice _ _ _) ?_) (.placeEntry ?_)
    · exact (setRecordNotice_entries _).trans (modifyRecord_entries _)
    · intro none_
      refine listed ((entryAt_congr ?_ _).symm.trans none_)
      exact (setRecordNotice_entries _).trans (modifyRecord_entries _)
  · exact .refl s

theorem revisitReport_noNewEntry (o : EndOutcome) : NoNewEntry s (s.revisitReport h o) := by
  unfold State.revisitReport
  split
  · exact .refl s
  · rename_i e found
    have listed : s.entryAt h.slot ≠ none := by rw [found]; exact nofun
    split
    · split
      · exact miss_noNewEntry listed
      · exact miss_noNewEntry listed
      · split
        · exact .placeEntry listed
        · exact .refl s
      · exact .setEntryStatus _ _
      · exact .refl s
    · exact .refl s

theorem reportEnd_noNewEntry (q : Request) (o : EndOutcome) : NoNewEntry s (s.reportEnd q o) := by
  unfold State.reportEnd
  split
  · exact .ite (revisitReport_noNewEntry o) ((revisitReport_noNewEntry o).trans (.of_entries rfl))
  · have home : NoNewEntry s (if o = .done ∧ s.driftOut q.handle = true then s.setDeviceNotice .home else s) := .ite (.of_entries rfl) (.refl s)
    exact .ite home (home.trans (.of_entries rfl))
  · exact .refl s
  · exact .refl s

theorem endPursuit_entries (b : Bool) : (s.endPursuit b).scheduler.entries = s.scheduler.entries := by
  unfold State.endPursuit
  split
  · rfl
  · dsimp only
    split
    · exact modifyRecord_entries _
    · rfl

theorem closeRequest_noNewEntry (q : Request) (o : EndOutcome) : NoNewEntry s (s.closeRequest q o) := by
  have closed : NoNewEntry s (((s.setGrant none).toDormant q.handle o).reportEnd q o) :=
    (NoNewEntry.of_entries (t := (s.setGrant none).toDormant q.handle o) (toDormant_entries o)).trans (reportEnd_noNewEntry q o)
  unfold State.closeRequest
  exact .ite (closed.trans (.of_entries rfl)) closed

theorem lostAtGrant_noNewEntry (q : Request) : NoNewEntry s (s.lostAtGrant q) :=
  (NoNewEntry.of_entries (t := s.setRecordNotice .lost q.handle) (setRecordNotice_entries _)).trans (closeRequest_noNewEntry q .lost)

theorem startSlew_entries (q : Request) (d : Direction) : (s.startSlew q d).scheduler.entries = s.scheduler.entries := modifyRecord_entries _

theorem pickWinner_entries {q : Request} (won : s.pickWinner = some (q, t)) : t.scheduler.entries = s.scheduler.entries := by
  rcases pickWinner_cases s won with ⟨rest, -, rfl, -⟩ | ⟨e, -, -, rfl, -⟩
  · rfl
  · rfl

theorem selectLoop_noNewEntry (n : Nat) : ∀ (halt : Bool) (s : State), NoNewEntry s (selectLoop n halt s) := by
  induction n with
  | zero => exact fun halt s => .ite (.of_entries rfl) (.refl s)
  | succ n ih =>
    intro halt s
    unfold selectLoop
    split
    · exact .ite (.of_entries rfl) (.refl s)
    · rename_i q t won
      have left : NoNewEntry s t := .of_entries (pickWinner_entries won)
      split
      · exact left.trans (.of_entries (startSlew_entries _ _))
      · exact (left.trans (lostAtGrant_noNewEntry _)).trans (ih _ _)

theorem select_noNewEntry (halt : Bool) : NoNewEntry s (s.select halt) := .ite (selectLoop_noNewEntry _ _ _) (.refl s)

theorem grantTo_noNewEntry (q : Request) : NoNewEntry s (s.grantTo q) := by
  unfold State.grantTo
  split
  · exact .of_entries (startSlew_entries _ _)
  · exact (lostAtGrant_noNewEntry q).trans (select_noNewEntry true)

/-! ### Preemption and offers -/

theorem enqueue_entries (q : Request) : (s.enqueue q).scheduler.entries = s.scheduler.entries := by
  unfold State.enqueue
  refine (modifyRecord_entries _).trans ?_
  unfold State.makeEntry
  split
  · rfl
  · rfl

theorem setStack_entries (l : List Request) : (s.setStack l).scheduler.entries = s.scheduler.entries := rfl

theorem dropped_entries (bottom : Request) (l : List Request) :
    (((s.setStack l).toDormant bottom.handle .dropped).setRecordNotice .drop bottom.handle).scheduler.entries = s.scheduler.entries := by
  rw [setRecordNotice_entries, toDormant_entries]
  rfl

theorem pushStack_entries (q : Request) : (s.pushStack q).scheduler.entries = s.scheduler.entries := by
  rw [State.pushStack, State.setRecordState, modifyRecord_entries]
  cases s.arbiter.stack[3]? with
  | none => rfl
  | some bottom =>
    dsimp only
    rw [setStack_entries, dropped_entries]

theorem preempted_entries (g : Request) :
    (((s.toDormant g.handle .preempted).setRecordNotice .drop g.handle).setPassWanted true).scheduler.entries = s.scheduler.entries := by
  rw [setPassWanted_entries, setRecordNotice_entries, toDormant_entries]

theorem dispose_entries (g : Request) : (s.dispose g).scheduler.entries = s.scheduler.entries := by
  unfold State.dispose
  split
  · exact enqueue_entries g
  · exact enqueue_entries g
  · split
    · exact pushStack_entries g
    · exact preempted_entries g
  · split
    · exact pushStack_entries g
    · exact preempted_entries g

theorem preempt_noNewEntry (g : Request) (e : QueueEntry) : NoNewEntry s (s.preempt g e) := by
  unfold State.preempt
  refine NoNewEntry.trans (.of_entries ?_) (grantTo_noNewEntry _)
  exact (dispose_entries g).trans (endPursuit_entries true)

theorem preemptionTest_noNewEntry : NoNewEntry s s.preemptionTest := by
  unfold State.preemptionTest
  split
  · exact .ite (preempt_noNewEntry _ _) (.refl s)
  · exact .refl s

theorem arbitrate_noNewEntry : NoNewEntry s s.arbitrate := .ite (select_noNewEntry false) preemptionTest_noNewEntry

theorem takeOffer_noNewEntry (h : Handle) : NoNewEntry s (s.takeOffer h).1 := by
  rcases takeOffer_cases s h with ⟨a, -, same⟩ | ⟨r, -, -, -, -, -, taken⟩
  · rw [same]
    exact .refl s
  · rw [taken]
    refine NoNewEntry.trans (NoNewEntry.trans (.setEntryStatus h.slot .offered) (.of_entries (enqueue_entries _))) arbitrate_noNewEntry

theorem offerWalk_noNewEntry (l : List (Fin 48)) : ∀ s, NoNewEntry s (offerWalk l s) := by
  induction l with
  | nil => exact .refl
  | cons i rest ih =>
    intro s
    unfold offerWalk
    split
    · exact ih s
    · rename_i h offered
      obtain ⟨e, r, found, -, -, slot, -⟩ := offerable_eq_some s offered
      have o := takeOffer_noNewEntry (s := s) h
      split <;> rename_i heq <;> rw [heq] at o
      · exact o
      · exact o
      · rename_i t
        have same : t = s := by
          rcases takeOffer_cases s h with ⟨a, -, same⟩ | ⟨r, -, -, -, -, -, taken⟩
          · rw [same] at heq
            exact (Prod.mk.inj heq).1.symm
          · rw [taken] at heq
            exact absurd (Prod.mk.inj heq).2 nofun
        rw [same]
        exact (miss_noNewEntry (by rw [slot, found]; exact nofun)).trans (ih _)
      · exact o.trans (ih _)

theorem passLoop_noNewEntry (n : Nat) : ∀ s, NoNewEntry s (passLoop n s) := by
  induction n with
  | zero => exact fun s => .of_entries rfl
  | succ n ih =>
    intro s
    unfold passLoop
    refine .ite ?_ (.of_entries rfl)
    have pass : NoNewEntry s (s.setPassWanted false).offerPass :=
      NoNewEntry.trans (t := s.setPassWanted false) (.of_entries rfl) (offerWalk_noNewEntry _ _)
    refine NoNewEntry.trans ?_ (ih _)
    exact .ite (pass.trans (.of_entries rfl)) pass

theorem settle_noNewEntry (n : Nat) : NoNewEntry s (s.settle n) := by
  unfold State.settle
  refine NoNewEntry.trans ?_ (passLoop_noNewEntry _ _)
  exact .ite (.of_entries rfl) (.refl s)

end Sys2Proof.Machine
end


section
/-! RETIRE (R11, R95): the slot vacated, the entry gone, and the record's request taken off the beam. -/

namespace Sys2Proof.Machine

variable {s t : State} {h : Handle} {r : Record} {i : Instr} {slot gen : Byte}

/-- The part with a record's slot vacated and its entry gone. -/
def retiredFrom (s : State) (h : Handle) (gen : Byte) : State :=
  ((s.removeEntry h.slot).setSlot h.slot { generation := gen + 1, record := none }).judgeLine

theorem exec_retire : exec (.retire slot gen) s = s.station (.retire slot gen) (settled (takeRetire slot gen)) := rfl

theorem takeRetire_owned (ok : s.lookupOwned slot gen = .ok (h, r)) :
    takeRetire slot gen s = ((s.retireRecord h r).1, noPayload (s.retireRecord h r).2) := by
  rw [takeRetire, ok]
  rfl

theorem lookup_of_owned (ok : s.lookupOwned slot gen = .ok (h, r)) : s.lookup slot gen = .ok (h, r) := by
  unfold State.lookupOwned at ok
  split at ok
  · cases ok
  · rename_i h' r' found
    split at ok
    · cases ok
    · rw [found]
      exact ok

theorem slotAt_generation_of_owned (ok : s.lookupOwned slot gen = .ok (h, r)) : (s.slotAt h.slot).generation = gen := by
  obtain ⟨live, -, generation⟩ := lookup_ok s (lookup_of_owned ok)
  rw [← generation]
  exact ((live_eq_some s).mp live).1

theorem vacated_eq (generation : (s.slotAt h.slot).generation = gen) :
    ((s.removeEntry h.slot).vacate h.slot).judgeLine = retiredFrom s h gen := by
  have generation' : ((s.removeEntry h.slot).slotAt h.slot).generation = gen := generation
  rw [State.vacate, generation']
  rfl

theorem dueSlots_retiredFrom (none_ : s.dueSlots = []) : (retiredFrom s h gen).dueSlots = [] :=
  dueSlots_eq_nil_iff.mpr fun e mem => dueSlots_eq_nil_iff.mp none_ e (List.mem_filter.mp mem).1

theorem reportRemoval_eq (q : Option Request) : ∃ b, s.reportRemoval q = s.setPassWanted b := by
  cases q with
  | none => exact ⟨s.scheduler.passWanted, rfl⟩
  | some q =>
    rw [State.reportRemoval]
    split
    · exact ⟨true, rfl⟩
    · exact ⟨s.scheduler.passWanted, rfl⟩

/-! ### Each state of the record -/

theorem retireRecord_home (home : h.slot = 0) : s.retireRecord h r = (s, .home) := by rw [State.retireRecord, if_pos home]

theorem retireRecord_dormant (ne : h.slot ≠ 0) (state : r.state = .dormant) (generation : (s.slotAt h.slot).generation = gen) :
    s.retireRecord h r = (retiredFrom s h gen, .ok) := by
  rw [retireRecord_eq s ne, if_neg (by simp [Record.isActive, state]), State.unclaim, state, ← vacated_eq generation]

theorem retireRecord_queued (ne : h.slot ≠ 0) (state : r.state = .queued) (generation : (s.slotAt h.slot).generation = gen) :
    ∃ b, s.retireRecord h r = (((retiredFrom s h gen).setQueue (withoutQueued h.slot s.arbiter.queue)).setPassWanted b, .ok) := by
  obtain ⟨b, told⟩ := reportRemoval_eq (s := s.setQueue (withoutQueued h.slot s.arbiter.queue)) ((s.queuedAt h.slot).map (·.request))
  refine ⟨b, ?_⟩
  rw [retireRecord_eq s ne, if_neg (by simp [Record.isActive, state]), State.unclaim, state, ← vacated_eq generation]
  dsimp only
  rw [told]
  rfl

theorem retireRecord_suspended (ne : h.slot ≠ 0) (state : r.state = .suspended) (generation : (s.slotAt h.slot).generation = gen) :
    ∃ b, s.retireRecord h r = (((retiredFrom s h gen).setStack (withoutStacked h.slot s.arbiter.stack)).setPassWanted b, .ok) := by
  obtain ⟨b, told⟩ := reportRemoval_eq (s := s.setStack (withoutStacked h.slot s.arbiter.stack)) (s.stackedAt h.slot)
  refine ⟨b, ?_⟩
  rw [retireRecord_eq s ne, if_neg (by simp [Record.isActive, state]), State.unclaim, state, ← vacated_eq generation]
  dsimp only
  rw [told]
  rfl

theorem retireRecord_active {st : Stage} {c : Context} (ne : h.slot ≠ 0) (state : r.state = .active st) (pursued : s.pursuit = some c)
    (generation : (s.slotAt h.slot).generation = gen) :
    ∃ b, s.retireRecord h r = (((beamLeft (retiredFrom s h gen)).setPassWanted b).select true, .ok) := by
  obtain ⟨b, told⟩ := reportRemoval_eq (s := beamLeft s) s.arbiter.grant
  refine ⟨b, ?_⟩
  rw [retireRecord_eq s ne, if_pos (by simp [Record.isActive, state]), State.unclaim, state, ← vacated_eq generation]
  dsimp only
  rw [endPursuit_left pursued, told]
  rfl

/-! ### Every state of the record -/

theorem reportRemoval_setup (q : Option Request) : SameSetup s (s.reportRemoval q) := by
  obtain ⟨b, told⟩ := reportRemoval_eq (s := s) q
  rw [told]
  exact setPassWanted_setup s b

theorem unclaim_setup : SameSetup s (s.unclaim h r) := by
  unfold State.unclaim
  split
  · exact .refl s
  · exact (setQueue_setup s _).trans (reportRemoval_setup _)
  · exact (setStack_setup s _).trans (reportRemoval_setup _)
  · exact ((endPursuit_setup s false).trans (setGrant_setup _ none)).trans (reportRemoval_setup _)

theorem SameRecords.vacant {j : Fin 48} {g : Byte} (same : SameRecords s t) (vacant : s.slotAt j = { generation := g, record := none }) :
    t.slotAt j = { generation := g, record := none } := by
  obtain ⟨generation, record⟩ := same j
  rw [State.recordAt, State.recordAt, vacant] at record
  rw [vacant] at generation
  have none_ : (t.slotAt j).record = none := by simpa using record
  cases slot : t.slotAt j
  simp_all

/-- The rest of a RETIRE after the vacated slot: selection for an ACTIVE record, and the scheduler's passes. -/
def retireRest (active : Bool) (n : Nat) (t : State) : State := (if active then t.select true else t).settle n

theorem retireRest_setup (active : Bool) (n : Nat) : SameSetup t (retireRest active n t) :=
  .trans (.ite (select_setup t true) (.refl t)) (settle_setup _ n)

theorem retireRest_noNewEntry (active : Bool) (n : Nat) : NoNewEntry t (retireRest active n t) :=
  .trans (.ite (select_noNewEntry true) (.refl t)) (settle_noNewEntry n)

theorem retire_takes (up : s.resetnLow = false) (ok : s.lookupOwned slot gen = .ok (h, r)) (ne : h.slot ≠ 0) :
    exec (.retire slot gen) s = .next ((retireRest r.isActive s.arbiter.queue.length
      (retiredFrom ((s.atRise (.retire slot gen)).unclaim h r) h gen)).respond (noPayload .ok)) := by
  have ok' : (s.atRise (.retire slot gen)).lookupOwned slot gen = .ok (h, r) := ok
  have generation : (((s.atRise (.retire slot gen)).unclaim h r).slotAt h.slot).generation = gen :=
    (unclaim_setup.records h.slot).1.trans (slotAt_generation_of_owned ok')
  rw [exec_retire, station_high s _ _ up, settled, takeRetire_owned ok', retireRecord_eq _ ne, vacated_eq generation]
  rfl

theorem slotAt_retiredFrom_self (s : State) : (retiredFrom s h gen).slotAt h.slot = { generation := gen + 1, record := none } :=
  slotAt_setSlot_self s h.slot _

theorem slotAt_retiredFrom_ne (s : State) {j : Fin 48} (other : j ≠ h.slot) : (retiredFrom s h gen).slotAt j = s.slotAt j :=
  slotAt_setSlot_ne s h.slot j _ other.symm

theorem live_retiredFrom_ne (s : State) {k : Handle} (other : k.slot ≠ h.slot) : (retiredFrom s h gen).live k = s.live k := by
  simp only [State.live, slotAt_retiredFrom_ne s other]

theorem entryAt_retiredFrom : (retiredFrom s h gen).entryAt h.slot = none :=
  entryAt_eq_none_iff.mpr fun e mem => by simpa using (List.mem_filter.mp mem).2

end Sys2Proof.Machine

open Sys2Proof Sys2Proof.Machine

/-- Settles O14: the slot is vacated under the next generation and the entry gone; what claimed the beam is taken off it. -/
theorem retireEndsRecord : Obligations.RetireEndsRecord := by
  unfold Obligations.RetireEndsRecord
  intro s slot gen h r up ok i gone
  have goneIs : gone = retiredFrom s h gen := rfl
  have generation : ((s.atRise i).slotAt h.slot).generation = gen := slotAt_generation_of_owned ok
  refine ⟨fun home calm => ?_, fun ne => ?_, fun ne state calm => ?_, fun ne none_ => ⟨fun state => ?_, fun state => ?_,
    fun st g c state running granted pursued => ?_⟩⟩
  · rw [exec_retire]
    refine station_leaves (t := s) up (settled_unchanged (s := s.atRise i) calm ?_) rfl
    rw [takeRetire_owned (s := s.atRise i) ok, retireRecord_home home]
  · refine ⟨_, retire_takes up ok ne, ⟨rfl, rfl⟩, ?_⟩
    have before : SameSetup (s.atRise i) ((s.atRise i).unclaim h r) := unclaim_setup
    have rest := retireRest_setup (t := retiredFrom ((s.atRise i).unclaim h r) h gen) r.isActive s.arbiter.queue.length
    have list := retireRest_noNewEntry (t := retiredFrom ((s.atRise i).unclaim h r) h gen) r.isActive s.arbiter.queue.length
    refine ⟨rest.records.vacant (slotAt_retiredFrom_self _), list h.slot entryAt_retiredFrom, fun j other => ?_, rest.classes.trans before.classes,
      rest.time.trans before.time, rest.sweep.trans before.sweep, rest.pendant.trans before.pendant, rest.recordMask.trans before.recordMask,
      rest.deviceMask.trans before.deviceMask, rest.master.trans before.master⟩
    obtain ⟨generation', record⟩ := rest.records j
    rw [slotAt_retiredFrom_ne _ other] at generation'
    rw [State.recordAt, State.recordAt, slotAt_retiredFrom_ne _ other] at record
    exact ⟨generation'.trans (before.records j).1, record.trans (before.records j).2⟩
  · rw [exec_retire]
    refine station_leaves (t := gone) (t' := gone.atRise i) up ?_ (respond_atRise_of_link rfl)
    have taken : takeRetire slot gen (s.atRise i) = (retiredFrom (s.atRise i) h gen, noPayload .ok) := by
      rw [takeRetire_owned (s := s.atRise i) ok, retireRecord_dormant ne state generation]
    rw [settled, taken]
    exact congrArg (·, noPayload .ok) ((settle_calm (retiredFrom (s.atRise i) h gen) calm le_rfl).trans rfl)
  · obtain ⟨b, taken⟩ := retireRecord_queued (s := s.atRise i) ne state generation
    refine station_settles (b := b) up ?_ (dueSlots_retiredFrom (h := h) (gen := gen) none_.2) none_.1 rfl
    rw [takeRetire_owned (s := s.atRise i) ok, taken]
    rfl
  · obtain ⟨b, taken⟩ := retireRecord_suspended (s := s.atRise i) ne state generation
    refine station_settles (b := b) up ?_ (dueSlots_retiredFrom (h := h) (gen := gen) none_.2) none_.1 rfl
    rw [takeRetire_owned (s := s.atRise i) ok, taken]
    rfl
  · obtain ⟨b, taken⟩ := retireRecord_active (s := s.atRise i) ne state pursued generation
    have taken' : takeRetire slot gen (s.atRise i) = (((beamLeft ((retiredFrom s h gen).atRise i)).setPassWanted b).select true, noPayload .ok) := by
      rw [takeRetire_owned (s := s.atRise i) ok, taken]
      rfl
    have rest : NothingDue (retiredFrom s h gen) := ⟨none_.1, dueSlots_retiredFrom none_.2⟩
    refine ⟨fun noQueue noStack => station_frees up taken' running rest noQueue noStack rfl,
      fun q queue stack rq d takes distinct other live predicted => station_passes up taken' running rest takes distinct ?_ predicted rfl⟩
    exact (live_retiredFrom_ne s other).trans live
end


section
/-! PURSUE (R84): the checks, a new queue entry, a merge, a raise, and the grant of a free beam. -/

namespace Sys2Proof.Machine

variable {s t : State} {h : Handle} {r : Record} {i : Instr} {slot gen flags pr : Byte} {az el : BitVec 32}

/-! ### The checks -/

theorem exec_pursue : exec (.pursue slot gen flags pr az el) s = s.station (.pursue slot gen flags pr az el) (settled (takePursue slot gen flags pr az el)) := rfl

theorem pursueInRange_iff (aim : Option Direction) :
    pursueInRange flags pr aim = true ↔ flags.toNat < 4 ∧ (flags.getLsbD 0 = true → pr.toNat ≤ 6) ∧ ∀ a, aim = some a → a.Fits := by
  unfold pursueInRange
  cases aim with
  | none => cases flags.getLsbD 0 <;> simp
  | some a => cases flags.getLsbD 0 <;> simp [inLimits_iff, and_assoc]

theorem takePursue_parked (ok : s.lookup slot gen = .ok (h, r)) (parked : s.arbiter.runMode = .parked) :
    takePursue slot gen flags pr az el s = (s, noPayload .parked) := by
  rw [takePursue, ok, onRecord_ok, if_pos parked, bare_eq]

theorem takePursue_range (ok : s.lookup slot gen = .ok (h, r)) (running : s.arbiter.runMode = .running)
    (outside : pursueInRange flags pr (aimOf flags az el) = false) : takePursue slot gen flags pr az el s = (s, noPayload .range) := by
  rw [takePursue, ok, onRecord_ok, if_neg (by rw [running]; exact nofun), if_pos outside, bare_eq]

theorem takePursue_taken (ok : s.lookup slot gen = .ok (h, r)) (running : s.arbiter.runMode = .running)
    (fits : pursueInRange flags pr (aimOf flags az el) = true) {a : Answer}
    (pursued : s.pursueRecord h r .station (s.pursuePriority flags pr) (aimOf flags az el) = (t, a)) :
    takePursue slot gen flags pr az el s = (t, noPayload a) := by
  rw [takePursue, ok, onRecord_ok, if_neg (by rw [running]; exact nofun), if_neg (by rw [fits]; exact nofun), pursued, bare_eq]

/-! ### The record's state -/

section
variable {o : Origin} {p : Nat} {aim : Option Direction}

theorem pursueRecord_active {st : Stage} (state : r.state = .active st) : s.pursueRecord h r o p aim = (s, .already) := by
  rw [State.pursueRecord, state]

theorem pursueRecord_noAim (state : r.state = .dormant) (nowhere : r.prediction aim s.now = none) : s.pursueRecord h r o p aim = (s, .noAim) := by
  rw [State.pursueRecord, state]
  exact if_pos (by rw [nowhere]; rfl)

theorem pursueRecord_full (state : r.state = .dormant) (somewhere : r.prediction aim s.now ≠ none) (full : 12 ≤ s.arbiter.queue.length) :
    s.pursueRecord h r o p aim = (s, .full) := by
  rw [State.pursueRecord, state]
  dsimp only
  rw [if_neg (by simpa using somewhere), if_pos (by simpa [State.queueFull] using full)]

theorem pursueRecord_entered (state : r.state = .dormant) (somewhere : r.prediction aim s.now ≠ none) (room : s.arbiter.queue.length < 12) :
    s.pursueRecord h r o p aim = ((s.enqueue (requestOf h o p aim)).arbitrate, .ok) := by
  rw [State.pursueRecord, state]
  dsimp only
  rw [if_neg (by simpa using somewhere), if_neg (by simpa [State.queueFull] using room)]
  rfl

theorem pursueRecord_suspended (state : r.state = .suspended) :
    s.pursueRecord h r o p aim =
      (s.setStack (s.arbiter.stack.map fun q => if q.handle.slot = h.slot then q.raise p aim else q), .already) := by
  rw [State.pursueRecord, state]

theorem pursueRecord_queued (state : r.state = .queued) :
    s.pursueRecord h r o p aim =
      ((s.setQueue (s.arbiter.queue.map fun e => if e.request.handle.slot = h.slot then e.merge p aim else e)).preemptionTest, .already) := by
  rw [State.pursueRecord, state]

end

/-! ### A new entry (R79) -/

theorem enqueue_below {q : Request} (live : s.live q.handle = some r) (below : s.arbiter.arrivalCounter ≠ 65535) :
    s.enqueue q = { s.withRecord q.handle { r with state := .queued } with arbiter := { s.arbiter with
      queue := s.arbiter.queue ++ [{ request := q, arrival := s.arbiter.arrivalCounter }], arrivalCounter := s.arbiter.arrivalCounter + 1 } } := by
  rw [State.enqueue, State.makeEntry, if_neg below]
  exact modifyRecord_live _ _ live

/-- At the counter's end the other entries are renumbered first. -/
theorem enqueue_wraps {q : Request} (live : s.live q.handle = some r) (wraps : s.arbiter.arrivalCounter = 65535) :
    s.enqueue q = { s.withRecord q.handle { r with state := .queued } with arbiter := { s.arbiter with
      queue := renumber s.arbiter.queue ++ [{ request := q, arrival := s.arbiter.queue.length }], arrivalCounter := s.arbiter.queue.length + 1 } } := by
  rw [State.enqueue, State.makeEntry, if_pos wraps]
  exact modifyRecord_live _ _ live

theorem arbitrate_free (free : s.arbiter.grant = none) : s.arbitrate = s.select false := by rw [State.arbitrate, free]; rfl

theorem arbitrate_granted {g : Request} (granted : s.arbiter.grant = some g) : s.arbitrate = s.preemptionTest := by rw [State.arbitrate, granted]; rfl

/-- Nothing in the queue tops the grant: it stands (R89). -/
theorem preemptionTest_below {g : Request} (granted : s.arbiter.grant = some g) (below : ∀ e ∈ s.arbiter.queue, e.request.priority ≤ g.priority) :
    s.preemptionTest = s := by
  rw [State.preemptionTest, granted]
  cases best : bestEntry s.arbiter.queue with
  | none => rfl
  | some e => exact if_neg (Nat.not_lt.mpr (below e (bestEntry_mem best)))

/-! ### What comes out -/

/-- A settled command that leaves no trigger and no shorter queue. -/
theorem settled_kept {take : State → State × Response} {x : Response} (taken : take s = (t, x)) (calm : t.scheduler.passWanted = false)
    (longer : s.arbiter.queue.length ≤ t.arbiter.queue.length) : settled take s = (t, x) := by
  rw [settled, taken]
  exact congrArg (·, x) (settle_calm t calm longer)

/-- PURSUE that leaves the beam as it is. -/
theorem exec_pursue_leaves {a : Answer} (up : s.resetnLow = false) (calm : t.scheduler.passWanted = false) (link : t.link = s.link)
    (longer : s.arbiter.queue.length ≤ t.arbiter.queue.length)
    (taken : takePursue slot gen flags pr az el (s.atRise (.pursue slot gen flags pr az el))
      = (t.atRise (.pursue slot gen flags pr az el), noPayload a)) :
    exec (.pursue slot gen flags pr az el) s = .next (answeredBy s (.pursue slot gen flags pr az el) (noPayload a) t) := by
  rw [exec_pursue]
  exact station_leaves up (settled_kept taken calm longer) (respond_atRise_of_link link)

theorem raise_eq (q : Request) (p : Nat) (aim : Option Direction) :
    q.raise p aim = { q with priority := max q.priority p, aim := if aim.isSome then aim else q.aim } := by
  cases aim with
  | none => rfl
  | some a => rfl

theorem merge_eq (e : QueueEntry) (p : Nat) (aim : Option Direction) : e.merge p aim = { e with request := e.request.raise p aim } := rfl

/-- What a request leaves that takes the free beam on its arrival. -/
def slewedFresh (s : State) (q : Request) (r : Record) (d : Direction) : State :=
  (((({ s with arbiter := { s.arbiter with grant := some q, arrivalCounter := s.arbiter.arrivalCounter + 1 } } :
    State).setContext (some (Context.fresh q d))).sendMove d)).withRecord q.handle { r with state := .active .slewing }

/-- A record that has just entered an empty queue of a free beam is slewed to. -/
theorem enqueue_arbitrate_free {q : Request} {d : Direction} (free : s.arbiter.grant = none) (running : s.arbiter.runMode = .running)
    (queue : s.arbiter.queue = []) (stack : s.arbiter.stack = []) (below : s.arbiter.arrivalCounter ≠ 65535) (live : s.live q.handle = some r)
    (predicted : r.prediction q.aim s.now = some d) :
    ∃ b, (s.enqueue q).arbitrate = (slewedFresh s q r d).setPassWanted b := by
  have entered := enqueue_below live below
  have takes : Selects (s.enqueue q).arbiter q s.arbiter.queue s.arbiter.stack := by
    refine .inr ⟨by rw [entered], ?_, ?_, { request := q, arrival := s.arbiter.arrivalCounter }, ?_, rfl, ?_⟩
    · simp [entered, queue]
    · simp [entered, stack]
    · simp [entered]
    · simp [entered, queue]
  have distinct : QueueDistinct (s.enqueue q).arbiter.queue := by simp [entered, queue, QueueDistinct]
  have live' : (s.enqueue q).live q.handle = some { r with state := .queued } := by
    rw [entered]
    exact live_withRecord s _ _
  have free' : (s.enqueue q).arbiter.grant = none := by rw [entered]; exact free
  obtain ⟨b, slewed⟩ := select_slews false free' (by rw [entered]; exact running) takes distinct live' (by rw [entered]; exact predicted)
  refine ⟨b, ?_⟩
  rw [arbitrate_free free', slewed, entered]
  refine congrArg (State.setPassWanted · b) ?_
  exact withRecord_withRecord ((({ s with arbiter := { s.arbiter with grant := some q, arrivalCounter := s.arbiter.arrivalCounter + 1 } } :
    State).setContext (some (Context.fresh q d))).sendMove d) q.handle _ _

end Sys2Proof.Machine

open Sys2Proof Sys2Proof.Machine

/-- Settles O25: the prediction by its cases; a record that enters an empty queue of a free beam is taken at once. -/
theorem pursueGrantsAtFreeBeam : Obligations.PursueGrantsAtFreeBeam := by
  unfold Obligations.PursueGrantsAtFreeBeam
  refine ⟨fun x aim t => ⟨fun d stands => prediction_of_standsAt stands aim t, fun fixed nowhere => prediction_of_nowhere fixed nowhere aim t,
    fun roving none_ => ?_, fun f roving fix still => ?_, fun f m roving fix moving => ?_⟩, ?_⟩
  · rw [prediction_of_roving roving, none_]
  · rw [prediction_of_roving roving, fix, still]
  · rw [prediction_of_roving roving, fix, moving]
    simp [carryForward, carried]
  · intro s slot gen flags pr az el h r d up running none_ ok state free queue stack below i aim q flagsFit priorityFits aimFits predicted
    have inRange : pursueInRange flags pr (aimOf flags az el) = true := (pursueInRange_iff _).mpr ⟨flagsFit, priorityFits, aimFits⟩
    have live : (s.atRise i).live q.handle = some r := lookup_live s ok
    have entered : (s.atRise i).pursueRecord h r .station ((s.atRise i).pursuePriority flags pr) (aimOf flags az el)
        = (((s.atRise i).enqueue q).arbitrate, .ok) :=
      pursueRecord_entered state (by rw [show (s.atRise i).now = s.now from rfl]; exact fun lost => nomatch lost.symm.trans predicted)
        (by rw [show (s.atRise i).arbiter.queue = [] from queue]; exact Nat.zero_lt_succ _)
    obtain ⟨b, slewed⟩ := enqueue_arbitrate_free (s := s.atRise i) free running queue stack (by exact Nat.ne_of_lt below) live predicted
    rw [exec_pursue, station_high s _ _ up, settled,
      takePursue_taken (s := s.atRise i) ok running inRange (entered.trans (congrArg (·, Answer.ok) slewed))]
    dsimp only
    rw [settled_calm (t := slewedFresh (s.atRise i) q r d) none_.2 none_.1]
    rfl

/-- Settles O26: each refusal; an entry, a merge or a raise that stays below the grant changes the one collection. -/
theorem pursueMergesOrIsRefused : Obligations.PursueMergesOrIsRefused := by
  unfold Obligations.PursueMergesOrIsRefused
  intro s slot gen flags pr az el h r up calm ok i aim p fits raised merged renumbered entered raisedStack
  have inRange : pursueInRange flags pr (aimOf flags az el) = true ↔ fits := pursueInRange_iff _
  have live : (s.atRise i).live h = some r := lookup_live s ok
  have enters {g : Request} {queue : List QueueEntry} {n : Nat} (running : s.arbiter.runMode = .running) (inside : fits)
      (granted : s.arbiter.grant = some g) (under : p ≤ g.priority) (below : ∀ e ∈ queue, e.request.priority ≤ g.priority)
      (same : queue.length = s.arbiter.queue.length) (room : s.arbiter.queue.length < 12) (state : r.state = .dormant)
      (somewhere : r.prediction aim s.now ≠ none) (taken : (s.atRise i).enqueue (requestOf h .station p aim) = (entered queue n).atRise i) :
      exec i s = .next (answeredBy s i (noPayload .ok) (entered queue n)) := by
    have stays : ((entered queue n).atRise i).arbitrate = (entered queue n).atRise i := by
      rw [arbitrate_granted (s := (entered queue n).atRise i) granted]
      refine preemptionTest_below (s := (entered queue n).atRise i) granted fun e mem => ?_
      rcases List.mem_append.mp mem with old | new
      · exact below e old
      · rw [List.mem_singleton.mp new]
        exact under
    have longer : s.arbiter.queue.length ≤ (entered queue n).arbiter.queue.length := by
      simp [entered, same]
    refine exec_pursue_leaves up calm rfl longer (takePursue_taken (s := s.atRise i) ok running (inRange.mpr inside) ?_)
    exact (pursueRecord_entered (s := s.atRise i) (aim := aim) state somewhere room).trans
      (congrArg (·, Answer.ok) ((congrArg State.arbitrate taken).trans stays))
  refine ⟨fun parked => ?_, fun running outside => ?_, fun running inside => ⟨fun st state => ?_, fun state nowhere => ?_, fun state somewhere full => ?_,
    fun g state somewhere room granted under below => ⟨fun free => ?_, fun wraps => ?_⟩, fun state => ?_, fun state g granted below => ?_⟩⟩
  · exact exec_pursue_leaves up calm rfl le_rfl (takePursue_parked (s := s.atRise i) ok parked)
  · refine exec_pursue_leaves up calm rfl le_rfl (takePursue_range (s := s.atRise i) ok running ?_)
    exact Bool.eq_false_iff.mpr fun both => outside (inRange.mp both)
  · exact exec_pursue_leaves up calm rfl le_rfl (takePursue_taken (s := s.atRise i) ok running (inRange.mpr inside) (pursueRecord_active state))
  · exact exec_pursue_leaves up calm rfl le_rfl (takePursue_taken (s := s.atRise i) ok running (inRange.mpr inside) (pursueRecord_noAim state nowhere))
  · exact exec_pursue_leaves up calm rfl le_rfl
      (takePursue_taken (s := s.atRise i) ok running (inRange.mpr inside) (pursueRecord_full state somewhere full))
  · have taken : (s.atRise i).enqueue (requestOf h .station p aim) = (entered s.arbiter.queue s.arbiter.arrivalCounter).atRise i :=
      enqueue_below live free
    exact enters running inside granted under below rfl room state somewhere taken
  · have taken : (s.atRise i).enqueue (requestOf h .station p aim) = (entered renumbered s.arbiter.queue.length).atRise i :=
      enqueue_wraps live wraps
    refine enters running inside granted under ?_ (by simp [renumbered]) room state somewhere taken
    intro e mem
    obtain ⟨x, old, rfl⟩ := List.mem_map.mp mem
    exact below x old
  · refine exec_pursue_leaves (t := s.setStack raisedStack) up calm rfl le_rfl
      ((takePursue_taken (s := s.atRise i) ok running (inRange.mpr inside) (pursueRecord_suspended state)).trans ?_)
    simp only [raise_eq]
    rfl
  · have stays : ((s.setQueue merged).atRise i).preemptionTest = (s.setQueue merged).atRise i :=
      preemptionTest_below (s := (s.setQueue merged).atRise i) granted below
    refine exec_pursue_leaves (t := s.setQueue merged) up calm rfl (by simp [merged])
      ((takePursue_taken (s := s.atRise i) ok running (inRange.mpr inside) (pursueRecord_queued state)).trans ?_)
    rw [← stays]
    simp only [merge_eq, raise_eq]
    rfl
end


section
/-! A preemption (R89 to R92): the pursuit of the grant ended, its record set aside, and the beam with the request that preempts. -/

namespace Sys2Proof.Machine

variable {s t : State} {h : Handle} {r rg : Record} {g : Request} {locked : Bool}

/-! ### Records of different slots -/

theorem setSlot_comm (s : State) {i j : Fin 48} (v w : Slot) (other : i ≠ j) : (s.setSlot i v).setSlot j w = (s.setSlot j w).setSlot i v := by
  have apart : i.val ≠ j.val := fun same => other (Fin.ext same)
  simp only [State.setSlot, Vector.set_comm v w apart]

theorem withRecord_comm (s : State) {h k : Handle} (x y : Record) (other : k.slot ≠ h.slot) :
    (s.withRecord h x).withRecord k y = (s.withRecord k y).withRecord h x := setSlot_comm s _ _ other.symm

theorem modifyRecord_withRecord_other (s : State) {h k : Handle} (f : Record → Record) (x : Record) (other : k.slot ≠ h.slot) :
    (s.withRecord h x).modifyRecord k f = (s.modifyRecord k f).withRecord h x := by
  have same := live_withRecord_other s x other
  cases live : s.live k with
  | none => rw [modifyRecord_none _ f (same.trans live), modifyRecord_none _ f live]
  | some y => rw [modifyRecord_live _ f (same.trans live), modifyRecord_live _ f live, withRecord_comm s _ _ other]

theorem live_modifyRecord_other (s : State) {h k : Handle} (f : Record → Record) (other : k.slot ≠ h.slot) : (s.modifyRecord h f).live k = s.live k := by
  cases live : s.live h with
  | none => rw [modifyRecord_none _ f live]
  | some y => rw [modifyRecord_live _ f live, live_withRecord_other s _ other]

theorem slotAt_withRecord_other (s : State) {h : Handle} {j : Fin 48} (x : Record) (other : j ≠ h.slot) : (s.withRecord h x).slotAt j = s.slotAt j :=
  slotAt_setSlot_ne s _ j _ other.symm

theorem slotAt_modifyRecord_other (s : State) {h : Handle} {j : Fin 48} (f : Record → Record) (other : j ≠ h.slot) :
    (s.modifyRecord h f).slotAt j = s.slotAt j := by
  cases live : s.live h with
  | none => rw [modifyRecord_none _ f live]
  | some y => rw [modifyRecord_live _ f live, slotAt_withRecord_other s _ other]

/-! ### The record set aside (R90, R91, R92) -/

/-- A record pushed out of the stack. -/
def droppedAs (r : Record) : Record := { r with state := .dormant, outcome := .dropped, notices := r.notices ||| recordBit .drop }

/-- The part with the record of a full stack's bottom entry dropped. -/
def bottomDropped (t : State) : State :=
  match t.arbiter.stack[3]? with
  | none => t
  | some bottom => (t.modifyRecord bottom.handle droppedAs).judgeLine

theorem bottomDropped_none (room : t.arbiter.stack[3]? = none) : bottomDropped t = t := by rw [bottomDropped, room]

theorem bottomDropped_some {bottom : Request} (full : t.arbiter.stack[3]? = some bottom) :
    bottomDropped t = (t.modifyRecord bottom.handle droppedAs).judgeLine := by rw [bottomDropped, full]

/-- A record whose pursuit has ended, with its lock latch cleared where it was locked (R73). -/
def unlatched (r : Record) (locked : Bool) : Record := { r with lockLatch := if locked then false else r.lockLatch }

/-- What a preempted record's disposal leaves, a dead bottom entry of the stack judged too. -/
def disposed (t : State) (g : Request) (r : Record) (locked : Bool) : State :=
  if g.origin = .revisit ∨ g.origin = .internal then
    { t.withRecord g.handle { unlatched r locked with state := .queued } with arbiter := { t.arbiter with
        queue := t.arbiter.queue ++ [{ request := g, arrival := t.arbiter.arrivalCounter }], arrivalCounter := t.arbiter.arrivalCounter + 1 } }
  else if r.autoResume then
    ((bottomDropped t).setStack (g :: t.arbiter.stack.take 3)).withRecord g.handle { unlatched r locked with state := .suspended }
  else
    (t.withRecord g.handle
      { unlatched r locked with state := .dormant, outcome := .preempted, notices := r.notices ||| recordBit .drop }).judgeLine

/-- The bottom entry of a full stack names none but its own record. -/
def BottomApart (t : State) (i : Fin 48) : Prop := ∀ x, t.arbiter.stack[3]? = some x → x.handle.slot ≠ i

theorem bottomDropped_cases (t : State) :
    t.arbiter.stack[3]? = none ∧ bottomDropped t = t
      ∨ ∃ bottom, t.arbiter.stack[3]? = some bottom ∧ bottomDropped t = (t.modifyRecord bottom.handle droppedAs).judgeLine := by
  cases bottom : t.arbiter.stack[3]? with
  | none => exact .inl ⟨rfl, bottomDropped_none bottom⟩
  | some x => exact .inr ⟨x, rfl, bottomDropped_some bottom⟩

theorem slotAt_bottomDropped {j : Fin 48} (apart : BottomApart t j) : (bottomDropped t).slotAt j = t.slotAt j := by
  rcases bottomDropped_cases t with ⟨-, same⟩ | ⟨bottom, full, dropped⟩
  · rw [same]
  · rw [dropped]
    exact slotAt_modifyRecord_other t droppedAs (apart bottom full).symm

theorem live_of_slotAt (same : t.slotAt h.slot = s.slotAt h.slot) : t.live h = s.live h := by simp only [State.live, same]

theorem take_three_of_room {α : Type} {l : List α} (room : l[3]? = none) : l.take 3 = l :=
  List.take_of_length_le (List.getElem?_eq_none_iff.mp room)

theorem setStack_modifyRecord (l : List Request) (f : Record → Record) : (t.setStack l).modifyRecord h f = (t.modifyRecord h f).setStack l := by
  have same : (t.setStack l).live h = t.live h := rfl
  cases live : t.live h with
  | none => rw [modifyRecord_none _ f (same.trans live), modifyRecord_none _ f live]
  | some y => rw [modifyRecord_live _ f (same.trans live), modifyRecord_live _ f live]; rfl

theorem setPassWanted_modifyRecord (b : Bool) (f : Record → Record) :
    (t.setPassWanted b).modifyRecord h f = (t.modifyRecord h f).setPassWanted b := by
  have same : (t.setPassWanted b).live h = t.live h := rfl
  cases live : t.live h with
  | none => rw [modifyRecord_none _ f (same.trans live), modifyRecord_none _ f live]
  | some y => rw [modifyRecord_live _ f (same.trans live), modifyRecord_live _ f live]; rfl

theorem toDormant_eq (o : EndOutcome) :
    ∃ b, t.toDormant h o = (t.modifyRecord h fun r => { r with state := .dormant, outcome := o }).setPassWanted b := by
  cases live : t.live h with
  | none =>
    rw [State.toDormant, modifyRecord_none _ _ live]
    split
    · split
      · exact ⟨true, rfl⟩
      · exact ⟨t.scheduler.passWanted, rfl⟩
    · exact ⟨t.scheduler.passWanted, rfl⟩
  | some r =>
    obtain ⟨b, dormant⟩ := toDormant_live live o
    refine ⟨b, ?_⟩
    rw [dormant, modifyRecord_live _ _ live]

theorem modifyRecord_modifyRecord (f f' : Record → Record) : (t.modifyRecord h f).modifyRecord h f' = t.modifyRecord h (f' ∘ f) := by
  cases live : t.live h with
  | none => rw [modifyRecord_none _ f live, modifyRecord_none _ f' live, modifyRecord_none _ _ live]
  | some y => rw [modifyRecord_live _ f live, modifyRecord_live _ f' (live_withRecord t h _), modifyRecord_live _ _ live, withRecord_withRecord]; rfl

/-- A record dropped, dead or alive. -/
theorem dropped_eq : ∃ b, (t.toDormant h .dropped).setRecordNotice .drop h = ((t.modifyRecord h droppedAs).judgeLine).setPassWanted b := by
  obtain ⟨b, dormant⟩ := toDormant_eq (t := t) (h := h) .dropped
  refine ⟨b, ?_⟩
  rw [dormant, State.setRecordNotice, setPassWanted_modifyRecord, modifyRecord_modifyRecord]
  rfl

/-- Dropping the bottom entry's record and writing another record may change places. -/
theorem dropBottom_withRecord {bottom : Request} (live : t.live g.handle = some r) (apart : bottom.handle.slot ≠ g.handle.slot) (l : List Request) :
    ∃ b, ((((t.withRecord g.handle (unlatched r locked)).setStack l).toDormant bottom.handle .dropped).setRecordNotice .drop bottom.handle)
      = ((((t.modifyRecord bottom.handle droppedAs).judgeLine).setStack l).withRecord g.handle (unlatched r locked)).setPassWanted b := by
  obtain ⟨b, dropped⟩ := dropped_eq (t := (t.withRecord g.handle (unlatched r locked)).setStack l) (h := bottom.handle)
  refine ⟨b, ?_⟩
  have live' : (t.modifyRecord bottom.handle droppedAs).live g.handle = some r := (live_modifyRecord_other t _ apart.symm).trans live
  have judged := judgeLine_withRecord (t.modifyRecord bottom.handle droppedAs) (unlatched r locked) live' rfl
  rw [dropped, setStack_modifyRecord, modifyRecord_withRecord_other _ _ _ apart]
  exact congrArg (State.setPassWanted · b) (congrArg (State.setStack · l) judged)

theorem pushStack_room (room : t.arbiter.stack[3]? = none) : t.pushStack g = (t.setStack (g :: t.arbiter.stack)).setRecordState g.handle .suspended := by
  rw [State.pushStack, room]

theorem pushStack_full {bottom : Request} (full : t.arbiter.stack[3]? = some bottom) :
    t.pushStack g = ((((t.setStack (t.arbiter.stack.take 3)).toDormant bottom.handle .dropped).setRecordNotice .drop bottom.handle).setStack
      (g :: (((t.setStack (t.arbiter.stack.take 3)).toDormant bottom.handle .dropped).setRecordNotice .drop bottom.handle).arbiter.stack)).setRecordState
        g.handle .suspended := by
  rw [State.pushStack, full]

/-- A record pushed on the stack. -/
theorem pushStack_live (live : t.live g.handle = some r) (apart : BottomApart t g.handle.slot) :
    ∃ b, (t.withRecord g.handle (unlatched r locked)).pushStack g
      = (((bottomDropped t).setStack (g :: t.arbiter.stack.take 3)).withRecord g.handle { unlatched r locked with state := .suspended }).setPassWanted b := by
  cases bottom : t.arbiter.stack[3]? with
  | none =>
    refine ⟨t.scheduler.passWanted, ?_⟩
    rw [pushStack_room (t := t.withRecord g.handle _) bottom, bottomDropped_none bottom, take_three_of_room bottom, State.setRecordState]
    have held : ((t.withRecord g.handle (unlatched r locked)).setStack (g :: t.arbiter.stack)).live g.handle = some (unlatched r locked) :=
      live_withRecord (t.setStack (g :: t.arbiter.stack)) _ _
    refine (modifyRecord_live _ _ held).trans ?_
    exact withRecord_withRecord (t.setStack (g :: t.arbiter.stack)) g.handle _ _
  | some x =>
    obtain ⟨b, dropped⟩ := dropBottom_withRecord (locked := locked) live (apart x bottom) (t.arbiter.stack.take 3)
    refine ⟨b, ?_⟩
    have pushed := pushStack_full (t := t.withRecord g.handle (unlatched r locked)) (g := g) bottom
    rw [arbiter_withRecord, dropped] at pushed
    rw [pushed, bottomDropped_some bottom, State.setRecordState]
    have held : ((((((t.modifyRecord x.handle droppedAs).judgeLine).setStack (t.arbiter.stack.take 3)).withRecord g.handle
      (unlatched r locked)).setPassWanted b).setStack (g :: t.arbiter.stack.take 3)).live g.handle = some (unlatched r locked) :=
      live_withRecord (((t.modifyRecord x.handle droppedAs).judgeLine).setStack _) _ _
    refine (modifyRecord_live _ _ held).trans ?_
    exact congrArg (State.setPassWanted · b)
      (withRecord_withRecord (((t.modifyRecord x.handle droppedAs).judgeLine).setStack (g :: t.arbiter.stack.take 3)) g.handle _ _)

/-- The disposal of a record whose pursuit has ended (R90 to R92). -/
theorem dispose_live (live : t.live g.handle = some r) (below : t.arbiter.arrivalCounter ≠ 65535) (apart : BottomApart t g.handle.slot) :
    ∃ b, (t.withRecord g.handle (unlatched r locked)).dispose g = (disposed t g r locked).setPassWanted b := by
  have held : (t.withRecord g.handle (unlatched r locked)).live g.handle = some (unlatched r locked) := live_withRecord t _ _
  have queued (back : g.origin = .revisit ∨ g.origin = .internal) :
      (t.withRecord g.handle (unlatched r locked)).enqueue g = (disposed t g r locked).setPassWanted t.scheduler.passWanted := by
    rw [enqueue_below held below, withRecord_withRecord, disposed, if_pos back]
    rfl
  have plain (there : ¬(g.origin = .revisit ∨ g.origin = .internal)) :
      ∃ b, (if (t.withRecord g.handle (unlatched r locked)).autoResumeOf g.handle then
          ((t.withRecord g.handle (unlatched r locked)).pushStack g).setPassWanted true
        else (((t.withRecord g.handle (unlatched r locked)).toDormant g.handle .preempted).setRecordNotice .drop g.handle).setPassWanted true)
        = (disposed t g r locked).setPassWanted b := by
    refine ⟨true, ?_⟩
    have resumes : (t.withRecord g.handle (unlatched r locked)).autoResumeOf g.handle = r.autoResume := by rw [State.autoResumeOf, held]; rfl
    rw [resumes, disposed, if_neg there]
    cases auto : r.autoResume with
    | true =>
      obtain ⟨b, pushed⟩ := pushStack_live (locked := locked) live apart
      rw [if_pos rfl, if_pos rfl, pushed]
      rfl
    | false =>
      obtain ⟨b, dormant⟩ := toDormant_live held .preempted
      rw [if_neg nofun, if_neg nofun, dormant, withRecord_withRecord]
      have noted := setRecordNotice_withRecord (s := t.setPassWanted b) g.handle { unlatched r locked with state := .dormant, outcome := .preempted } .drop
      refine (congrArg (State.setPassWanted · true) noted).trans ?_
      rfl
  cases origin : g.origin with
  | revisit => exact ⟨_, by rw [State.dispose, origin]; exact queued (.inl origin)⟩
  | internal => exact ⟨_, by rw [State.dispose, origin]; exact queued (.inr origin)⟩
  | station =>
    rw [State.dispose, origin]
    exact plain (by simp [origin])
  | pendant =>
    rw [State.dispose, origin]
    exact plain (by simp [origin])

/-! ### What a disposal leaves unchanged -/

theorem disposed_induction {p : State → Prop}
    (queued : p { t.withRecord g.handle { unlatched r locked with state := .queued } with arbiter := { t.arbiter with
      queue := t.arbiter.queue ++ [{ request := g, arrival := t.arbiter.arrivalCounter }], arrivalCounter := t.arbiter.arrivalCounter + 1 } })
    (pushed : p (((bottomDropped t).setStack (g :: t.arbiter.stack.take 3)).withRecord g.handle { unlatched r locked with state := .suspended }))
    (ended : p (t.withRecord g.handle
      { unlatched r locked with state := .dormant, outcome := .preempted, notices := r.notices ||| recordBit .drop }).judgeLine) :
    p (disposed t g r locked) := by
  rw [disposed]
  split
  · exact queued
  · split
    · exact pushed
    · exact ended

theorem bottomDropped_induction {p : State → Prop} (same : p t) (dropped : ∀ k : Handle, p (t.modifyRecord k droppedAs).judgeLine) :
    p (bottomDropped t) := by
  rcases bottomDropped_cases t with ⟨-, none_⟩ | ⟨bottom, -, some_⟩
  · rw [none_]
    exact same
  · rw [some_]
    exact dropped bottom.handle

theorem slotAt_disposed_other {j : Fin 48} (other : j ≠ g.handle.slot) (apart : BottomApart t j) : (disposed t g r locked).slotAt j = t.slotAt j := by
  refine disposed_induction (p := fun u => u.slotAt j = t.slotAt j) ?_ ?_ ?_
  · exact slotAt_withRecord_other t _ other
  · exact (slotAt_withRecord_other ((bottomDropped t).setStack _) _ other).trans (slotAt_bottomDropped apart)
  · exact slotAt_withRecord_other t _ other

theorem bottomDropped_fields : (bottomDropped t).time = t.time ∧ (bottomDropped t).ports = t.ports
    ∧ (bottomDropped t).scheduler = t.scheduler ∧ (bottomDropped t).arbiter = t.arbiter ∧ (bottomDropped t).link = t.link := by
  refine bottomDropped_induction (p := fun u => u.time = t.time ∧ u.ports = t.ports ∧ u.scheduler = t.scheduler ∧ u.arbiter = t.arbiter
    ∧ u.link = t.link) ⟨rfl, rfl, rfl, rfl, rfl⟩ fun k => ?_
  simp

theorem disposed_fields : (disposed t g r locked).time = t.time ∧ (disposed t g r locked).ports = t.ports
    ∧ (disposed t g r locked).scheduler = t.scheduler ∧ (disposed t g r locked).link = t.link := by
  obtain ⟨time, ports, scheduler, -, link⟩ := bottomDropped_fields (t := t)
  exact disposed_induction (p := fun u => u.time = t.time ∧ u.ports = t.ports ∧ u.scheduler = t.scheduler ∧ u.link = t.link)
    ⟨rfl, rfl, rfl, rfl⟩ ⟨time, ports, scheduler, link⟩ ⟨rfl, rfl, rfl, rfl⟩

/-! ### The preemption (R89) -/

theorem endPursuit_true {c : Context} (pursued : s.pursuit = some c) (live : s.live c.target = some r) :
    s.endPursuit true = ((s.setContext none).withdrawRange).withRecord c.target (unlatched r (decide (c.stage = .locked))) := by
  rw [State.endPursuit, pursued]
  dsimp only
  have live' : ((s.setContext none).withdrawRange).live c.target = some r := live
  by_cases locked : c.stage = .locked
  · rw [if_pos ⟨rfl, locked⟩, modifyRecord_live _ _ live', decide_eq_true locked]
    rfl
  · rw [if_neg (fun both => locked both.2), decide_eq_false locked]
    exact (withRecord_self _ live').symm

theorem endPursuit_true_left {c : Context} (pursued : s.pursuit = some c) (target : c.target = h) (live : s.live h = some r) :
    (s.endPursuit true).setGrant none = (beamLeft s).withRecord h (unlatched r (decide (c.stage = .locked))) := by
  subst target
  rw [endPursuit_true pursued live]
  rfl

/-- The beam with a request that has a prediction. -/
def slewOn (t : State) (q : Request) (r : Record) (d : Direction) : State :=
  (((t.setGrant (some q)).setContext (some (Context.fresh q d))).sendMove d).withRecord q.handle { r with state := .active .slewing }

theorem grantTo_predicted {q : Request} {d : Direction} (live : s.live q.handle = some r) (predicted : r.prediction q.aim s.now = some d) :
    s.grantTo q = slewOn s q r d := by
  have aimed : s.predictionFor q s.now = some d := by
    rw [State.predictionFor, live]
    exact predicted
  rw [State.grantTo, aimed]
  exact startSlew_live d live

theorem preempt_taken {e : QueueEntry} {rw_ : Record} {c : Context} {d : Direction} (pursued : s.pursuit = some c) (target : c.target = g.handle)
    (live : s.live g.handle = some rg) (below : s.arbiter.arrivalCounter ≠ 65535) (apart : BottomApart s g.handle.slot)
    (liveW : (disposed (beamLeft (s.setQueue (withoutQueued e.request.handle.slot s.arbiter.queue))) g rg (decide (c.stage = .locked))).live
      e.request.handle = some rw_)
    (predicted : rw_.prediction e.request.aim s.now = some d) :
    ∃ b, s.preempt g e = (slewOn (disposed (beamLeft (s.setQueue (withoutQueued e.request.handle.slot s.arbiter.queue))) g rg
      (decide (c.stage = .locked))) e.request rw_ d).setPassWanted b := by
  obtain ⟨b, done⟩ := dispose_live (t := beamLeft (s.setQueue (withoutQueued e.request.handle.slot s.arbiter.queue))) (g := g)
    (locked := decide (c.stage = .locked)) live below apart
  refine ⟨b, ?_⟩
  have now : (disposed (beamLeft (s.setQueue (withoutQueued e.request.handle.slot s.arbiter.queue))) g rg (decide (c.stage = .locked))).now = s.now :=
    congrArg TimeBase.count (disposed_fields).1
  have live' : (s.setQueue (withoutQueued e.request.handle.slot s.arbiter.queue)).live g.handle = some rg := live
  have pursued' : (s.setQueue (withoutQueued e.request.handle.slot s.arbiter.queue)).pursuit = some c := pursued
  rw [State.preempt, endPursuit_true_left pursued' target live', done]
  generalize disposed _ g rg _ = u at liveW now ⊢
  exact grantTo_predicted (s := u.setPassWanted b) liveW (by rw [← now] at predicted; exact predicted)

end Sys2Proof.Machine
end


section
/-! PURSUE that preempts (R84, R89 to R92). -/

namespace Sys2Proof.Machine

variable {s t x : State} {h : Handle} {r rg rw_ : Record} {g : Request} {c : Context} {w : QueueEntry} {d : Direction} {locked : Bool}

theorem preemptionTest_above (granted : s.arbiter.grant = some g) (distinct : QueueDistinct s.arbiter.queue) (waits : w ∈ s.arbiter.queue)
    (best : ∀ y ∈ s.arbiter.queue, y.request.priority < w.request.priority ∨ y.request.priority = w.request.priority ∧ w.arrival ≤ y.arrival)
    (above : g.priority < w.request.priority) : s.preemptionTest = s.preempt g w := by
  rw [State.preemptionTest, granted, bestEntry_of_best distinct.1 waits best]
  exact if_pos above

/-! ### The collections and the records after a disposal -/

theorem disposed_back (back : g.origin = .revisit ∨ g.origin = .internal) :
    disposed t g r locked = { t.withRecord g.handle { unlatched r locked with state := .queued } with arbiter := { t.arbiter with
      queue := t.arbiter.queue ++ [{ request := g, arrival := t.arbiter.arrivalCounter }], arrivalCounter := t.arbiter.arrivalCounter + 1 } } := by
  rw [disposed, if_pos back]

theorem not_back_of_plain (plain : g.origin = .station ∨ g.origin = .pendant) : ¬(g.origin = .revisit ∨ g.origin = .internal) := by
  rcases plain with origin | origin
  · simp [origin]
  · simp [origin]

theorem disposed_pushed (plain : g.origin = .station ∨ g.origin = .pendant) (auto : r.autoResume = true) :
    disposed t g r locked =
      ((bottomDropped t).setStack (g :: t.arbiter.stack.take 3)).withRecord g.handle { unlatched r locked with state := .suspended } := by
  rw [disposed, if_neg (not_back_of_plain plain), if_pos auto]

theorem disposed_ended (plain : g.origin = .station ∨ g.origin = .pendant) (auto : r.autoResume = false) :
    disposed t g r locked = (t.withRecord g.handle
      { unlatched r locked with state := .dormant, outcome := .preempted, notices := r.notices ||| recordBit .drop }).judgeLine := by
  rw [disposed, if_neg (not_back_of_plain plain), if_neg (by rw [auto]; exact nofun)]

/-- What a request leaves that brings the queue it waits in above the grant, but for the test: the queue, the record and the rest as they stand. -/
structure Waits (s x : State) (i : Instr) (h : Handle) (r : Record) (waiting : List QueueEntry) (counter : Nat) : Prop where
  queue : x.arbiter.queue = waiting
  stack : x.arbiter.stack = s.arbiter.stack
  grant : x.arbiter.grant = s.arbiter.grant
  counter : x.arbiter.arrivalCounter = counter
  pursuit : x.pursuit = s.pursuit
  now : x.now = s.now
  entries : x.scheduler = s.scheduler
  ports : x.ports = { s.ports with driveOut := [], rangeOut := [] }
  record : x.recordAt h.slot = some { r with state := .queued }
  others : ∀ j, j ≠ h.slot → x.slotAt j = s.slotAt j
  slot : (x.slotAt h.slot).generation = (s.slotAt h.slot).generation

theorem Waits.live_other {i : Instr} {waiting : List QueueEntry} {counter : Nat} (waits : Waits s x i h r waiting counter) {k : Handle}
    (other : k.slot ≠ h.slot) : x.live k = s.live k := live_of_slotAt (waits.others _ other)

/-- The winner's record, its state aside. -/
theorem Waits.live_any {i : Instr} {waiting : List QueueEntry} {counter : Nat} (waits : Waits s x i h r waiting counter) {k : Handle}
    (held : s.live h = some r) (live : s.live k = some rw_) : ∃ st, x.live k = some { rw_ with state := st } := by
  by_cases same : k.slot = h.slot
  · obtain ⟨generation, record⟩ := (live_eq_some s).mp live
    obtain ⟨-, record'⟩ := (live_eq_some s).mp held
    rw [same] at generation record
    cases record.symm.trans record'
    refine ⟨.queued, (live_eq_some x).mpr ⟨?_, ?_⟩⟩
    · rw [same, waits.slot, generation]
    · rw [same, waits.record]
  · exact ⟨rw_.state, (waits.live_other same).trans live⟩

section
variable {slot gen pr : Byte} (ok : s.lookup slot gen = .ok (h, r)) (running : s.arbiter.runMode = .running) (fits : pr.toNat ≤ 6)
include ok running fits

theorem takePursue_entered (granted : s.arbiter.grant = some g) (below : s.arbiter.arrivalCounter ≠ 65535) (state : r.state = .dormant) (somewhere : r.prediction none s.now ≠ none)
    (room : s.arbiter.queue.length < 12) :
    takePursue slot gen 1 pr 0 0 s = (({ s.withRecord h { r with state := .queued } with arbiter := { s.arbiter with
      queue := s.arbiter.queue ++ [{ request := requestOf h .station pr.toNat none, arrival := s.arbiter.arrivalCounter }]
      arrivalCounter := s.arbiter.arrivalCounter + 1 } } : State).preemptionTest, noPayload .ok) := by
  have inRange : pursueInRange 1 pr (aimOf 1 0 0) = true := (pursueInRange_iff _).mpr ⟨by decide, fun _ => fits, nofun⟩
  have taken := enqueue_below (s := s) (q := requestOf h .station pr.toNat none) (lookup_live s ok) below
  have granted' : (s.enqueue (requestOf h .station pr.toNat none)).arbiter.grant = some g := by
    rw [taken]
    exact granted
  have pursued : s.pursueRecord h r .station pr.toNat none = ((s.enqueue (requestOf h .station pr.toNat none)).preemptionTest, .ok) := by
    rw [pursueRecord_entered state somewhere room, arbitrate_granted granted']
  rw [taken] at pursued
  exact takePursue_taken ok running inRange pursued

theorem takePursue_merged (state : r.state = .queued) :
    takePursue slot gen 1 pr 0 0 s = ((s.setQueue (s.arbiter.queue.map fun e =>
      if e.request.handle.slot = h.slot then { e with request := { e.request with priority := max e.request.priority pr.toNat } }
      else e)).preemptionTest, noPayload .already) := by
  have inRange : pursueInRange 1 pr (aimOf 1 0 0) = true := (pursueInRange_iff _).mpr ⟨by decide, fun _ => fits, nofun⟩
  have pursued := pursueRecord_queued (s := s) (h := h) (o := .station) (p := pr.toNat) (aim := none) state
  exact takePursue_taken ok running inRange pursued

end

theorem waits_entered (live : s.live h = some r) (i : Instr) (e : QueueEntry) :
    Waits s { (s.atRise i).withRecord h { r with state := .queued } with arbiter := { s.arbiter with
      queue := s.arbiter.queue ++ [e], arrivalCounter := s.arbiter.arrivalCounter + 1 } } i h r
      (s.arbiter.queue ++ [e]) (s.arbiter.arrivalCounter + 1) where
  queue := rfl
  stack := rfl
  grant := rfl
  counter := rfl
  pursuit := rfl
  now := rfl
  entries := rfl
  ports := rfl
  record := recordAt_withRecord_self _ _ _
  others := fun j other => slotAt_withRecord_other (s.atRise i) _ other
  slot := by
    have written : ((s.atRise i).withRecord h { r with state := .queued }).slotAt h.slot
        = { generation := h.generation, record := some { r with state := .queued } } := slotAt_setSlot_self _ _ _
    exact (congrArg Slot.generation written).trans ((live_eq_some s).mp live).1.symm

theorem waits_merged (live : s.live h = some r) (i : Instr) (state : r.state = .queued) (l : List QueueEntry) :
    Waits s ((s.atRise i).setQueue l) i h r l s.arbiter.arrivalCounter where
  queue := rfl
  stack := rfl
  grant := rfl
  counter := rfl
  pursuit := rfl
  now := rfl
  entries := rfl
  ports := rfl
  record := by
    rw [← state]
    exact ((live_eq_some s).mp live).2
  others := fun _ _ => rfl
  slot := rfl

/-- A new entry, or a merge, that waits. -/
theorem pursue_waits {slot gen pr : Byte} {waiting : List QueueEntry} (ok : s.lookup slot gen = .ok (h, r)) (running : s.arbiter.runMode = .running)
    (granted : s.arbiter.grant = some g) (below : s.arbiter.arrivalCounter < 65534) (fits : pr.toNat ≤ 6)
    (enters : r.state = .dormant ∧ r.prediction none s.now ≠ none ∧ s.arbiter.queue.length < 12
        ∧ waiting = s.arbiter.queue ++ [{ request := requestOf h .station pr.toNat none, arrival := s.arbiter.arrivalCounter }]
      ∨ r.state = .queued ∧ waiting = s.arbiter.queue.map fun e =>
          if e.request.handle.slot = h.slot then { e with request := { e.request with priority := max e.request.priority pr.toNat } } else e)
    (i : Instr) :
    ∃ x, takePursue slot gen 1 pr 0 0 (s.atRise i) = (x.preemptionTest, noPayload (if r.state = .dormant then .ok else .already))
      ∧ Waits s x i h r waiting (if r.state = .dormant then s.arbiter.arrivalCounter + 1 else s.arbiter.arrivalCounter) := by
  have live : s.live h = some r := lookup_live s ok
  rcases enters with ⟨state, somewhere, room, rfl⟩ | ⟨state, rfl⟩
  · rw [if_pos state, if_pos state]
    exact ⟨_, takePursue_entered (s := s.atRise i) ok running fits granted (Nat.ne_of_lt (Nat.lt_succ_of_lt below)) state somewhere room,
      waits_entered live i _⟩
  · have other : r.state ≠ .dormant := by rw [state]; exact nofun
    rw [if_neg other, if_neg other]
    exact ⟨_, takePursue_merged (s := s.atRise i) ok running fits state, waits_merged live i state _⟩

/-! ### What comes out -/

/-- The part with the winner's entry out of the queue and the beam left. -/
def winnerOut (x : State) (w : Request) : State := beamLeft (x.setQueue (withoutQueued w.handle.slot x.arbiter.queue))

/-- The part with the beam and the grant's record as a preemption leaves them. -/
def preempted (x : State) (g w : Request) (rg rw_ : Record) (locked : Bool) (d : Direction) : State :=
  slewOn (disposed (winnerOut x w) g rg locked) w rw_ d

theorem Waits.preempts {i : Instr} {counter : Nat} {waiting : List QueueEntry} (waits : Waits s x i h r waiting counter) (held : s.live h = some r)
    (granted : s.arbiter.grant = some g) (liveG : s.live g.handle = some rg) (apartG : g.handle.slot ≠ h.slot) (pursued : s.pursuit = some c)
    (target : c.target = g.handle) (below : counter ≠ 65535) (distinct : QueueDistinct waiting) (mem : w ∈ waiting)
    (best : ∀ y ∈ waiting, y.request.priority < w.request.priority ∨ y.request.priority = w.request.priority ∧ w.arrival ≤ y.arrival)
    (above : g.priority < w.request.priority) (apartW : w.request.handle.slot ≠ g.handle.slot) (liveW : s.live w.request.handle = some rw_)
    (bottomG : BottomApart s g.handle.slot) (bottomW : BottomApart s w.request.handle.slot)
    (predicted : rw_.prediction w.request.aim s.now = some d) :
    ∃ st b, x.preemptionTest = (preempted x g w.request rg { rw_ with state := st } (decide (c.stage = .locked)) d).setPassWanted b := by
  obtain ⟨st, live⟩ := waits.live_any held liveW
  refine ⟨st, ?_⟩
  have liveG' : x.live g.handle = some rg := (waits.live_other apartG).trans liveG
  have bottomG' : BottomApart x g.handle.slot := fun y full => bottomG y (by rw [← waits.stack]; exact full)
  have bottomW' : BottomApart (winnerOut x w.request) w.request.handle.slot :=
    fun y full => bottomW y (by rw [← waits.stack]; exact full)
  rw [preemptionTest_above (s := x) (g := g) (w := w) (waits.grant.trans granted) (by rw [waits.queue]; exact distinct) (by rw [waits.queue]; exact mem)
    (by rw [waits.queue]; exact best) above]
  refine preempt_taken (waits.pursuit.trans pursued) target liveG' (by rw [waits.counter]; exact below) bottomG' ?_ ?_
  · exact (live_of_slotAt (slotAt_disposed_other apartW bottomW')).trans live
  · rw [waits.now]
    exact predicted

end Sys2Proof.Machine
end


section
/-! What a preemption leaves, field by field (R89 to R92). -/

namespace Sys2Proof.Machine

variable {s t x : State} {h : Handle} {r rg rw_ : Record} {g w : Request} {d : Direction} {locked : Bool} {j : Fin 48}

theorem dueSlots_preempted (none_ : x.dueSlots = []) : (preempted x g w rg rw_ locked d).dueSlots = [] := by
  obtain ⟨-, -, scheduler, -⟩ := disposed_fields (t := winnerOut x w) (g := g) (r := rg) (locked := locked)
  have entries : (preempted x g w rg rw_ locked d).scheduler = x.scheduler := scheduler
  rw [State.dueSlots, entries]
  exact none_

theorem ports_preempted : (preempted x g w rg rw_ locked d).ports = { x.ports with
    outstanding := none, latestMoveTag := some x.ports.nextMoveTag, nextMoveTag := x.ports.nextMoveTag + 1
    driveOut := x.ports.driveOut ++ [.move d x.ports.nextMoveTag] } := by
  obtain ⟨-, ports, -, -⟩ := disposed_fields (t := winnerOut x w) (g := g) (r := rg) (locked := locked)
  have sent : (preempted x g w rg rw_ locked d).ports = ((disposed (winnerOut x w) g rg locked).sendMove d).ports := rfl
  rw [sent, State.sendMove, ports]
  rfl

theorem recordAt_preempted_winner : (preempted x g w rg rw_ locked d).recordAt w.handle.slot = some { rw_ with state := .active .slewing } :=
  recordAt_withRecord_self _ _ _

theorem slotAt_preempted_other (other : j ≠ w.handle.slot) : (preempted x g w rg rw_ locked d).slotAt j =
    (disposed (winnerOut x w) g rg locked).slotAt j :=
  slotAt_withRecord_other ((((disposed (winnerOut x w) g rg locked).setGrant _).setContext _).sendMove d) _ other

theorem plain_of_not_back (there : ¬(g.origin = .revisit ∨ g.origin = .internal)) : g.origin = .station ∨ g.origin = .pendant := by
  cases origin : g.origin with
  | station => exact .inl rfl
  | pendant => exact .inr rfl
  | revisit => exact absurd (.inl origin) there
  | internal => exact absurd (.inr origin) there

/-- Only a push on the stack drops the bottom entry's record. -/
theorem slotAt_disposed_else (other : j ≠ g.handle.slot)
    (apart : (g.origin = .station ∨ g.origin = .pendant) → r.autoResume = true → BottomApart t j) : (disposed t g r locked).slotAt j = t.slotAt j := by
  by_cases back : g.origin = .revisit ∨ g.origin = .internal
  · rw [disposed_back back]
    exact slotAt_withRecord_other t _ other
  · have plain := plain_of_not_back back
    cases auto : r.autoResume with
    | true => exact slotAt_disposed_other other (apart plain auto)
    | false =>
      rw [disposed_ended plain auto]
      exact slotAt_withRecord_other t _ other

theorem slotAt_preempted_else (otherW : j ≠ w.handle.slot) (otherG : j ≠ g.handle.slot)
    (apart : (g.origin = .station ∨ g.origin = .pendant) → rg.autoResume = true → BottomApart x j) :
    (preempted x g w rg rw_ locked d).slotAt j = x.slotAt j :=
  (slotAt_preempted_other otherW).trans (slotAt_disposed_else otherG apart)

theorem recordAt_setStack (l : List Request) : (t.setStack l).recordAt j = t.recordAt j := rfl

theorem recordAt_of_slotAt (same : t.slotAt j = s.slotAt j) : t.recordAt j = s.recordAt j := by rw [State.recordAt, State.recordAt, same]

section
variable (apart : g.handle.slot ≠ w.handle.slot)
include apart

theorem preempted_pushed (plain : g.origin = .station ∨ g.origin = .pendant) (auto : rg.autoResume = true) :
    (preempted x g w rg rw_ locked d).arbiter.stack = g :: x.arbiter.stack.take 3
      ∧ (preempted x g w rg rw_ locked d).arbiter.queue = withoutQueued w.handle.slot x.arbiter.queue
      ∧ (preempted x g w rg rw_ locked d).recordAt g.handle.slot = some { unlatched rg locked with state := .suspended } := by
  have pushed := disposed_pushed (t := winnerOut x w) (locked := locked) plain auto
  have arbiter : (bottomDropped (winnerOut x w)).arbiter = _ := bottomDropped_fields.2.2.2.1
  have stack := congrArg (fun y : State => y.arbiter.stack) pushed
  have queue := congrArg (fun y : State => y.arbiter.queue) pushed
  have kept := congrArg Arbiter.queue arbiter
  refine ⟨stack, queue.trans kept, ?_⟩
  rw [recordAt_of_slotAt (slotAt_preempted_other apart), pushed]
  exact recordAt_withRecord_self _ _ _

theorem preempted_ended (plain : g.origin = .station ∨ g.origin = .pendant) (auto : rg.autoResume = false) :
    (preempted x g w rg rw_ locked d).arbiter.stack = x.arbiter.stack
      ∧ (preempted x g w rg rw_ locked d).arbiter.queue = withoutQueued w.handle.slot x.arbiter.queue
      ∧ (preempted x g w rg rw_ locked d).recordAt g.handle.slot = some
          { unlatched rg locked with state := .dormant, outcome := .preempted, notices := rg.notices ||| recordBit .drop } := by
  have ended := disposed_ended (t := winnerOut x w) (locked := locked) plain auto
  have stack := congrArg (fun y : State => y.arbiter.stack) ended
  have queue := congrArg (fun y : State => y.arbiter.queue) ended
  refine ⟨stack, queue, ?_⟩
  rw [recordAt_of_slotAt (slotAt_preempted_other apart), ended]
  exact recordAt_withRecord_self (winnerOut x w) _ _

theorem preempted_back (back : g.origin = .revisit ∨ g.origin = .internal) :
    (preempted x g w rg rw_ locked d).arbiter.stack = x.arbiter.stack
      ∧ (preempted x g w rg rw_ locked d).arbiter.queue =
          withoutQueued w.handle.slot x.arbiter.queue ++ [{ request := g, arrival := x.arbiter.arrivalCounter }]
      ∧ (preempted x g w rg rw_ locked d).recordAt g.handle.slot = some { unlatched rg locked with state := .queued } := by
  have queued := disposed_back (t := winnerOut x w) (r := rg) (locked := locked) back
  have stack := congrArg (fun y : State => y.arbiter.stack) queued
  have queue := congrArg (fun y : State => y.arbiter.queue) queued
  refine ⟨stack, queue, ?_⟩
  rw [recordAt_of_slotAt (slotAt_preempted_other apart), queued]
  exact recordAt_withRecord_self (winnerOut x w) _ _

end

/-- The record that a full stack drops. -/
theorem preempted_bottom {bottom : Request} {rb : Record} (plain : g.origin = .station ∨ g.origin = .pendant) (auto : rg.autoResume = true)
    (full : x.arbiter.stack[3]? = some bottom) (live : x.live bottom.handle = some rb) (otherG : bottom.handle.slot ≠ g.handle.slot)
    (otherW : bottom.handle.slot ≠ w.handle.slot) :
    (preempted x g w rg rw_ locked d).recordAt bottom.handle.slot = some (droppedAs rb) := by
  have pushed := disposed_pushed (t := winnerOut x w) (locked := locked) plain auto
  have live' : (winnerOut x w).live bottom.handle = some rb := live
  rw [recordAt_of_slotAt (slotAt_preempted_other otherW), pushed, recordAt_of_slotAt (slotAt_withRecord_other _ _ otherG), recordAt_setStack,
    bottomDropped_some (t := winnerOut x w) full, modifyRecord_live _ _ live']
  exact recordAt_withRecord_self (winnerOut x w) _ _

end Sys2Proof.Machine

open Sys2Proof Sys2Proof.Machine

/-- Settles O27: the request that tops the grant is taken by the preemption, and the record of the grant is disposed of. -/
theorem preemptionDisposes : Obligations.PreemptionDisposes := by
  unfold Obligations.PreemptionDisposes
  intro s slot gen pr h r rg rw_ g c waiting w d up running none_ ok granted liveG apartG pursued target below fits enters distinct mem best above apartW
    liveW bottoms predicted i latch rest counter pushed
  have held : s.live h = some r := lookup_live s ok
  obtain ⟨x, taken, waits⟩ := pursue_waits ok running granted below fits enters i
  have counts : counter ≠ 65535 := by
    have := Nat.lt_succ_of_lt below
    dsimp only [counter]
    split <;> omega
  have apart : g.handle.slot ≠ w.request.handle.slot := apartW.symm
  obtain ⟨st, b, tested⟩ := waits.preempts held granted liveG apartG pursued target counts distinct mem best above apartW liveW
    (fun y full => (bottoms y full).2.1) (fun y full => (bottoms y full).2.2) predicted
  have none' : x.dueSlots = [] := by
    rw [State.dueSlots, waits.entries]
    exact none_.2
  have restIs : withoutQueued w.request.handle.slot x.arbiter.queue = rest := by
    rw [waits.queue]
    rfl
  have counterIs : x.arbiter.arrivalCounter = counter := waits.counter
  have stackIs := waits.stack
  have bottomH : BottomApart x h.slot := fun y full => (bottoms y (by rw [← stackIs]; exact full)).1
  have due : (preempted x g w.request rg { rw_ with state := st } (decide (c.stage = .locked)) d).dueSlots = [] := dueSlots_preempted none'
  have latchIs : (unlatched rg (decide (c.stage = .locked))).lockLatch = latch := by
    dsimp only [unlatched, latch]
    by_cases locked : c.stage = .locked
    · simp [locked]
    · simp [locked]
  have result : exec i s = .next (((preempted x g w.request rg { rw_ with state := st } (decide (c.stage = .locked)) d).setPassWanted false).respond
      (noPayload (if r.state = .dormant then .ok else .already))) := by
    rw [exec_pursue, station_high s _ _ up, settled, taken, tested]
    dsimp only
    rw [settle_nothingDue _ (by exact due)]
    rfl
  refine ⟨_, result, ⟨rfl, rfl⟩, rfl, rfl, ?_, ?_, recordAt_preempted_winner, fun other => ?_, fun both room => ?_,
    fun bottom rb both full last live => ?_, fun plain auto => ?_, fun back => ?_, fun j otherH otherG otherW others => ?_⟩
  · refine (congrArg Ports.driveOut (ports_preempted (rw_ := { rw_ with state := st }))).trans ?_
    rw [waits.ports]
    rfl
  · exact congrArg Ports.outstanding (ports_preempted (rw_ := { rw_ with state := st }))
  · rw [← waits.record]
    exact recordAt_of_slotAt (slotAt_preempted_else other.symm apartG.symm fun _ _ => bottomH)
  · obtain ⟨stack, queue, record⟩ := preempted_pushed (x := x) (rw_ := { rw_ with state := st }) (locked := decide (c.stage = .locked)) (d := d) apart
      both.1 both.2
    rw [restIs] at queue
    rw [stackIs, List.take_of_length_le (Nat.le_of_lt_succ room)] at stack
    exact ⟨stack, queue, record.trans (by rw [← latchIs]; rfl)⟩
  · obtain ⟨stack, queue, record⟩ := preempted_pushed (x := x) (rw_ := { rw_ with state := st }) (locked := decide (c.stage = .locked)) (d := d) apart
      both.1 both.2
    rw [restIs] at queue
    rw [stackIs] at stack
    obtain ⟨otherH, otherG, otherW⟩ := bottoms bottom last
    exact ⟨stack, queue, record.trans (by rw [← latchIs]; rfl), preempted_bottom both.1 both.2 (by rw [stackIs]; exact last)
      ((waits.live_other otherH).trans live) otherG otherW⟩
  · obtain ⟨stack, queue, record⟩ := preempted_ended (x := x) (rw_ := { rw_ with state := st }) (locked := decide (c.stage = .locked)) (d := d) apart
      plain auto
    rw [restIs] at queue
    rw [stackIs] at stack
    exact ⟨stack, queue, record.trans (by rw [← latchIs]; rfl)⟩
  · obtain ⟨stack, queue, record⟩ := preempted_back (x := x) (rg := rg) (rw_ := { rw_ with state := st }) (locked := decide (c.stage = .locked)) (d := d)
      apart back
    rw [restIs, counterIs] at queue
    rw [stackIs] at stack
    exact ⟨stack, queue, record.trans (by rw [← latchIs]; rfl)⟩
  · refine (slotAt_preempted_else otherW otherG fun plain auto y full => ?_).trans (waits.others j otherH)
    rw [stackIs] at full
    exact (others ⟨plain, auto⟩ (List.getElem?_eq_some_iff.mp full).1 y full).symm
end


section
/-! PARK (R98, R116): what each step writes. -/

namespace Sys2Proof.Machine

variable {s t u : State} {h : Handle} {r : Record} {g : Request} {c : Context} {j : Fin 48}

/-! ### Steps that write records only -/

/-- t differs from s in the table and in the trigger of a pass only. -/
def OnlyRecords (s t : State) : Prop := ∃ T b, t = { s with table := T, scheduler := { s.scheduler with passWanted := b } }

theorem OnlyRecords.refl (s : State) : OnlyRecords s s := ⟨s.table, s.scheduler.passWanted, rfl⟩

theorem OnlyRecords.trans (a : OnlyRecords s t) (b : OnlyRecords t u) : OnlyRecords s u := by
  obtain ⟨T, b, rfl⟩ := a
  obtain ⟨T', b', rfl⟩ := b
  exact ⟨T', b', rfl⟩

theorem modifyRecord_onlyRecords (f : Record → Record) : OnlyRecords s (s.modifyRecord h f) := by
  cases live : s.live h with
  | none =>
    rw [modifyRecord_none _ f live]
    exact .refl s
  | some r =>
    rw [modifyRecord_live _ f live]
    exact ⟨_, s.scheduler.passWanted, rfl⟩

theorem toDormant_onlyRecords (o : EndOutcome) : OnlyRecords s (s.toDormant h o) := by
  obtain ⟨b, dormant⟩ := toDormant_eq (t := s) (h := h) o
  rw [dormant]
  exact (modifyRecord_onlyRecords _).trans ⟨_, b, rfl⟩

/-! ### The record of a slot -/

theorem handleOf_eq_iff : s.handleOf j = h ↔ h.slot = j ∧ (s.slotAt j).generation = h.generation := by
  constructor
  · rintro rfl
    exact ⟨rfl, rfl⟩
  · rintro ⟨rfl, generation⟩
    rw [State.handleOf, generation]

theorem recordAt_modified (f : Record → Record) :
    (s.modifyRecord h f).recordAt j = (s.recordAt j).map fun r => if s.handleOf j = h then f r else r := by
  rw [recordAt_modifyRecord]
  by_cases named : h.slot = j ∧ (s.slotAt j).generation = h.generation
  · rw [if_pos named]
    simp only [if_pos (handleOf_eq_iff.mpr named)]
  · rw [if_neg named]
    simp only [if_neg fun same => named (handleOf_eq_iff.mp same)]
    exact (congrFun Option.map_id _).symm

theorem handleOf_of_setup (same : SameSetup s t) : t.handleOf j = s.handleOf j := by rw [State.handleOf, State.handleOf, (same.records j).1]

/-- A record that PARK has cleared the request of. -/
def parkedAs (r : Record) : Record := { r with state := .dormant, outcome := .parked }

theorem recordAt_toDormant_parked : (s.toDormant h .parked).recordAt j = (s.recordAt j).map fun r => if s.handleOf j = h then parkedAs r else r := by
  obtain ⟨b, dormant⟩ := toDormant_eq (t := s) (h := h) .parked
  rw [dormant]
  exact recordAt_modified _

/-- The records of a list of requests PARKED: each once, however often it is named. -/
theorem recordAt_foldl_parked (l : List Request) : ∀ s : State,
    (l.foldl (fun s q => s.toDormant q.handle .parked) s).recordAt j
      = (s.recordAt j).map fun r => if s.handleOf j ∈ l.map (·.handle) then parkedAs r else r := by
  induction l with
  | nil => exact fun s => by simp
  | cons q rest ih =>
    intro s
    rw [List.foldl_cons, ih, handleOf_of_setup (toDormant_setup s _ _), recordAt_toDormant_parked, Option.map_map]
    refine congrArg (fun f => Option.map f (s.recordAt j)) (funext fun r => ?_)
    by_cases first : s.handleOf j = q.handle <;> by_cases later : s.handleOf j ∈ rest.map (·.handle) <;> simp [first, later, parkedAs]

theorem foldl_parked_onlyRecords (l : List Request) : ∀ s : State, OnlyRecords s (l.foldl (fun s q => s.toDormant q.handle .parked) s) := by
  induction l with
  | nil => exact .refl
  | cons q rest ih => exact fun s => (toDormant_onlyRecords _).trans (ih _)

/-! ### The grant's end (step 1) -/

/-- An entry that PARK leaves (R116). -/
def dueNow (e : RevisitEntry) : RevisitEntry := if e.status = .offered then { e with status := .due } else e

/-- The end PARKED of a request is reported by an entry DUE, which the freeze writes anyway. -/
theorem reportEnd_parked (nodup : (s.scheduler.entries.map (·.handle.slot)).Nodup) (q : Request) :
    ∃ l, s.reportEnd q .parked = s.setEntries l ∧ l.map dueNow = s.scheduler.entries.map dueNow := by
  have same : ∃ l, s = s.setEntries l ∧ l.map dueNow = s.scheduler.entries.map dueNow := ⟨s.scheduler.entries, rfl, rfl⟩
  cases origin : q.origin with
  | station => rw [State.reportEnd, origin]; exact same
  | pendant => rw [State.reportEnd, origin]; exact same
  | internal => rw [State.reportEnd, origin]; exact same
  | revisit =>
    rw [State.reportEnd, origin]
    dsimp only
    rw [if_pos rfl, State.revisitReport]
    cases found : s.entryAt q.handle.slot with
    | none => exact same
    | some e =>
      dsimp only
      by_cases offered : e.status = .offered
      · rw [if_pos offered]
        refine ⟨_, rfl, ?_⟩
        rw [List.map_map]
        refine List.map_congr_left fun x mem => ?_
        by_cases here : x.handle.slot = q.handle.slot
        · have only : s.entryAt x.handle.slot = some x := entryAt_of_mem s nodup mem
          rw [here, found] at only
          cases only
          simp [dueNow, here, offered]
        · simp [dueNow, here]
      · rw [if_neg offered]
        exact same

/-- The record of a slot when a pursuit has ended. -/
def latchedOut (c : Context) (k : Handle) (r : Record) : Record :=
  { r with lockLatch := if c.stage = .locked ∧ c.target = k then false else r.lockLatch }

theorem endPursuit_onlyRecords (pursued : s.pursuit = some c) : OnlyRecords ((s.setContext none).withdrawRange) (s.endPursuit true) := by
  rw [State.endPursuit, pursued]
  dsimp only
  split
  · exact modifyRecord_onlyRecords _
  · exact .refl _

theorem recordAt_endPursuit (pursued : s.pursuit = some c) :
    (s.endPursuit true).recordAt j = (s.recordAt j).map (latchedOut c (s.handleOf j)) := by
  rw [State.endPursuit, pursued]
  dsimp only
  by_cases locked : c.stage = .locked
  · rw [if_pos ⟨rfl, locked⟩, recordAt_modified]
    refine congrArg (fun f => Option.map f (s.recordAt j)) (funext fun r => ?_)
    have same : ((s.setContext none).withdrawRange).handleOf j = s.handleOf j := rfl
    rw [same]
    by_cases target : c.target = s.handleOf j
    · simp [latchedOut, locked, target]
    · simp [latchedOut, locked, target, Ne.symm target]
  · rw [if_neg fun both => locked both.2]
    have kept : latchedOut c (s.handleOf j) = id := funext fun r => by simp [latchedOut, locked]
    rw [kept, Option.map_id]
    rfl

/-- The grant's record PARKED, before the report. -/
def grantParked (s : State) (g : Request) : State := ((s.endPursuit true).setGrant none).toDormant g.handle .parked

theorem grantParked_onlyRecords (pursued : s.pursuit = some c) : OnlyRecords (beamLeft s) (grantParked s g) := by
  obtain ⟨T, b, ended⟩ := endPursuit_onlyRecords pursued
  have left : OnlyRecords (beamLeft s) ((s.endPursuit true).setGrant none) := ⟨T, b, congrArg (State.setGrant · none) ended⟩
  exact left.trans (toDormant_onlyRecords _)

theorem recordAt_grantParked (pursued : s.pursuit = some c) :
    (grantParked s g).recordAt j = (s.recordAt j).map fun r =>
      if s.handleOf j = g.handle then parkedAs (latchedOut c (s.handleOf j) r) else latchedOut c (s.handleOf j) r := by
  have handle : ((s.endPursuit true).setGrant none).handleOf j = s.handleOf j := handleOf_of_setup ((endPursuit_setup s true).trans (setGrant_setup _ none))
  have record : ((s.endPursuit true).setGrant none).recordAt j = (s.endPursuit true).recordAt j := rfl
  rw [grantParked, recordAt_toDormant_parked, handle, record, recordAt_endPursuit pursued, Option.map_map]
  rfl

/-- Step 1 of PARK under a grant: what is written, and the records. -/
theorem parkGrant_granted (nodup : (s.scheduler.entries.map (·.handle.slot)).Nodup) (granted : s.arbiter.grant = some g) (pursued : s.pursuit = some c) :
    ∃ l, s.parkGrant = (grantParked s g).setEntries l ∧ l.map dueNow = s.scheduler.entries.map dueNow := by
  obtain ⟨T, b, only⟩ := grantParked_onlyRecords (g := g) pursued
  have entries : (grantParked s g).scheduler.entries = s.scheduler.entries := by
    rw [only]
    rfl
  obtain ⟨l, reported, same⟩ := reportEnd_parked (s := grantParked s g) (by rw [entries]; exact nodup) g
  refine ⟨l, ?_, by rw [same, entries]⟩
  rw [State.parkGrant, granted]
  exact reported

theorem parkGrant_none (free : s.arbiter.grant = none) : s.parkGrant = s := by rw [State.parkGrant, free]

/-! ### The collections and the freeze (steps 2, 3 and 5) -/

theorem parkCollections_onlyRecords :
    OnlyRecords { s with arbiter := { s.arbiter with queue := [], stack := [], arrivalCounter := 0 } } s.parkCollections := by
  obtain ⟨T, b, folded⟩ := foldl_parked_onlyRecords (s.arbiter.queue.map (·.request) ++ s.arbiter.stack) ((s.setQueue []).setStack [])
  exact ⟨T, b, congrArg (State.setArrivalCounter · 0) folded⟩

theorem recordAt_parkCollections :
    s.parkCollections.recordAt j = (s.recordAt j).map fun r =>
      if s.handleOf j ∈ (s.arbiter.queue.map (·.request) ++ s.arbiter.stack).map (·.handle) then parkedAs r else r :=
  recordAt_foldl_parked _ ((s.setQueue []).setStack [])

theorem settle_frozen {n : Nat} (frozen : s.scheduler.frozen = true) : s.settle n = s.setPassWanted false := by
  rw [State.settle]
  split
  · exact if_neg fun both => absurd (frozen.symm.trans both.2) Bool.noConfusion
  · exact if_neg fun both => absurd (frozen.symm.trans both.2) Bool.noConfusion

/-- The lock latch of the record of a slot when PARK ends the pursuit. -/
def parkedLatch (s : State) (j : Fin 48) (r : Record) : Record :=
  { r with lockLatch := if ∃ c, s.pursuit = some c ∧ c.stage = .locked ∧ c.target = s.handleOf j then false else r.lockLatch }

theorem parkGrant_fields (paired : s.pursuit.isSome = s.arbiter.grant.isSome) (nodup : (s.scheduler.entries.map (·.handle.slot)).Nodup) :
    s.parkGrant.arbiter = { s.arbiter with grant := none } ∧ s.parkGrant.pursuit = none
      ∧ s.parkGrant.ports = { s.ports with outstanding := if s.arbiter.grant.isSome then none else s.ports.outstanding }
      ∧ s.parkGrant.notices = s.notices ∧ s.parkGrant.scheduler.entries.map dueNow = s.scheduler.entries.map dueNow := by
  cases granted : s.arbiter.grant with
  | none =>
    rw [granted] at paired
    rw [parkGrant_none granted]
    refine ⟨?_, by simpa using paired, rfl, rfl, rfl⟩
    rw [← granted]
  | some g =>
    rw [granted] at paired
    obtain ⟨c, pursued⟩ := Option.isSome_iff_exists.mp paired
    obtain ⟨l, reported, same⟩ := parkGrant_granted nodup granted pursued
    obtain ⟨T, b, only⟩ := grantParked_onlyRecords (g := g) pursued
    rw [reported, only]
    exact ⟨rfl, rfl, rfl, rfl, same⟩

theorem recordAt_parkGrant (paired : s.pursuit.isSome = s.arbiter.grant.isSome) (nodup : (s.scheduler.entries.map (·.handle.slot)).Nodup) :
    s.parkGrant.recordAt j = (s.recordAt j).map fun r =>
      if s.handleOf j ∈ s.arbiter.grant.toList.map (·.handle) then parkedAs (parkedLatch s j r) else parkedLatch s j r := by
  cases granted : s.arbiter.grant with
  | none =>
    rw [granted] at paired
    have free : s.pursuit = none := by simpa using paired
    rw [parkGrant_none granted]
    have kept : (fun r => if s.handleOf j ∈ (none : Option Request).toList.map (·.handle) then parkedAs (parkedLatch s j r) else parkedLatch s j r) = id :=
      funext fun r => by simp [parkedLatch, free]
    rw [kept, Option.map_id]
    rfl
  | some g =>
    rw [granted] at paired
    obtain ⟨c, pursued⟩ := Option.isSome_iff_exists.mp paired
    obtain ⟨l, reported, -⟩ := parkGrant_granted nodup granted pursued
    have record : ((grantParked s g).setEntries l).recordAt j = (grantParked s g).recordAt j := rfl
    have latch (r : Record) : parkedLatch s j r = latchedOut c (s.handleOf j) r := by simp [parkedLatch, latchedOut, pursued]
    rw [reported, record, recordAt_grantParked pursued]
    simp [latch]

/-- The rest of PARK: the collections, the drive and the freeze. -/
def parkRest (y : State) : State := y.parkCollections.driveHome.freeze

theorem parkRest_fields (y : State) :
    (parkRest y).arbiter = { y.arbiter with queue := [], stack := [], runMode := .parked, arrivalCounter := 0 } ∧ (parkRest y).pursuit = y.pursuit
      ∧ (parkRest y).notices = y.notices
      ∧ (parkRest y).scheduler = { entries := y.scheduler.entries.map dueNow, frozen := true, passWanted := (parkRest y).scheduler.passWanted } := by
  obtain ⟨T, b, collections⟩ := parkCollections_onlyRecords (s := y)
  obtain ⟨-, -, pursuit, arbiter, scheduler, -, -, notices, -⟩ := driveHome_fields y.parkCollections
  refine ⟨?_, ?_, ?_, ?_⟩
  · refine (congrArg (fun a : Arbiter => { a with runMode := .parked }) arbiter).trans ?_
    rw [collections]
  · refine pursuit.trans ?_
    rw [collections]
  · refine notices.trans ?_
    rw [collections]
  · refine congrArg (fun l : List RevisitEntry => Scheduler.mk (l.map dueNow) true (parkRest y).scheduler.passWanted) ?_
    refine (congrArg Scheduler.entries scheduler).trans ?_
    rw [collections]

theorem recordAt_parkRest (y : State) : (parkRest y).recordAt j = y.parkCollections.recordAt j := by
  have table : (parkRest y).table = y.parkCollections.table := (driveHome_fields y.parkCollections).1
  rw [State.recordAt, State.recordAt, State.slotAt, State.slotAt, table]

theorem parkRest_move {y : State} {ref : Reference} (home : (y.parkCollections.recordAt 0).bind (·.reference) = some ref) :
    (parkRest y).ports = { y.ports with
      latestMoveTag := some y.ports.nextMoveTag, nextMoveTag := y.ports.nextMoveTag + 1
      driveOut := y.ports.driveOut ++ [.move ref.direction y.ports.nextMoveTag] } := by
  obtain ⟨T, b, collections⟩ := parkCollections_onlyRecords (s := y)
  have ports : y.parkCollections.ports = y.ports := by rw [collections]
  have sent : (parkRest y).ports = y.parkCollections.driveHome.ports := rfl
  rw [sent, State.driveHome, home]
  refine (sendMove_ports _ _).trans ?_
  rw [ports]

theorem parkRest_halt {y : State} (home : (y.parkCollections.recordAt 0).bind (·.reference) = none) :
    (parkRest y).ports = { y.ports with latestMoveTag := none, driveOut := y.ports.driveOut ++ [.halt] } := by
  obtain ⟨T, b, collections⟩ := parkCollections_onlyRecords (s := y)
  have ports : y.parkCollections.ports = y.ports := by rw [collections]
  have sent : (parkRest y).ports = y.parkCollections.driveHome.ports := rfl
  rw [sent, State.driveHome, home]
  refine (sendHalt_ports _).trans ?_
  rw [ports]

theorem reference_of_setup (same : SameSetup s t) : (t.recordAt 0).bind (·.reference) = (s.recordAt 0).bind (·.reference) := by
  have record := (same.records 0).2
  cases held : s.recordAt 0 with
  | none =>
    rw [held] at record
    rw [show t.recordAt 0 = none by simpa using record]
  | some r =>
    rw [held] at record
    obtain ⟨r', held', same'⟩ := Option.map_eq_some_iff.mp record
    rw [held']
    exact congrArg RecordSetup.reference same'

/-- The records that PARK leaves. -/
theorem recordAt_parked (paired : s.pursuit.isSome = s.arbiter.grant.isSome) (nodup : (s.scheduler.entries.map (·.handle.slot)).Nodup) :
    (parkRest s.parkGrant).recordAt j = (s.recordAt j).map fun r =>
      if s.handleOf j ∈ (s.arbiter.grant.toList ++ s.arbiter.queue.map (·.request) ++ s.arbiter.stack).map (·.handle) then parkedAs (parkedLatch s j r)
      else parkedLatch s j r := by
  obtain ⟨arbiter, -⟩ := parkGrant_fields paired nodup
  rw [recordAt_parkRest, recordAt_parkCollections, recordAt_parkGrant paired nodup, Option.map_map, handleOf_of_setup (parkGrant_setup s), arbiter]
  refine congrArg (fun f => Option.map f (s.recordAt j)) (funext fun r => ?_)
  rw [List.append_assoc, List.map_append (f := fun q : Request => q.handle) (l₁ := s.arbiter.grant.toList)]
  by_cases first : s.handleOf j ∈ s.arbiter.grant.toList.map (·.handle)
  · by_cases later : s.handleOf j ∈ (s.arbiter.queue.map (·.request) ++ s.arbiter.stack).map (·.handle)
    · simp only [Function.comp, if_pos first, if_pos later, if_pos (List.mem_append_left _ first)]
      rfl
    · simp only [Function.comp, if_pos first, if_neg later, if_pos (List.mem_append_left _ first)]
  · by_cases later : s.handleOf j ∈ (s.arbiter.queue.map (·.request) ++ s.arbiter.stack).map (·.handle)
    · simp only [Function.comp, if_neg first, if_pos later, if_pos (List.mem_append_right _ later)]
    · simp only [Function.comp, if_neg first, if_neg later, if_neg fun mem => (List.mem_append.mp mem).elim first later]

theorem parked_eq (s : State) (l : List Handle) (j : Fin 48) (r : Record) :
    (if s.handleOf j ∈ l then parkedAs (parkedLatch s j r) else parkedLatch s j r) = { r with
      state := if s.handleOf j ∈ l then .dormant else r.state
      outcome := if s.handleOf j ∈ l then .parked else r.outcome
      lockLatch := if ∃ c, s.pursuit = some c ∧ c.stage = .locked ∧ c.target = s.handleOf j then false else r.lockLatch } := by
  by_cases cleared : s.handleOf j ∈ l
  · simp only [if_pos cleared, parkedAs, parkedLatch]
  · simp only [if_neg cleared, parkedLatch]

end Sys2Proof.Machine

open Sys2Proof Sys2Proof.Machine

/-- Settles O30: PARK step by step; the frozen scheduler makes no pass. -/
theorem parkClearsRequests : Obligations.ParkClearsRequests := by
  unfold Obligations.ParkClearsRequests
  intro s up calm paired nodup
  constructor
  · intro parked
    have taken : takePark (s.atRise .park) = (s.atRise .park, noPayload .already) := if_pos parked
    exact station_leaves (t := s) up (settled_unchanged (s := s.atRise .park) calm taken) rfl
  · intro running handles home
    have running' : (s.atRise .park).arbiter.runMode ≠ .parked := by
      rw [show (s.atRise .park).arbiter.runMode = .running from running]
      exact nofun
    have taken : takePark (s.atRise .park) = (parkRest (s.atRise .park).parkGrant, noPayload .ok) := if_neg running'
    obtain ⟨arbiter, pursuit, ports, notices, entries⟩ := parkGrant_fields (s := s.atRise .park) paired nodup
    obtain ⟨arbiter', pursuit', notices', scheduler⟩ := parkRest_fields (s.atRise .park).parkGrant
    have setup : SameSetup (s.atRise .park) (parkRest (s.atRise .park).parkGrant) :=
      (((parkGrant_setup _).trans (parkCollections_setup _)).trans (driveHome_setup _)).trans (freeze_setup _)
    have collected : SameSetup (s.atRise .park) (s.atRise .park).parkGrant.parkCollections := (parkGrant_setup _).trans (parkCollections_setup _)
    have record (j : Fin 48) := recordAt_parked (s := s.atRise .park) (j := j) paired nodup
    have moves (ref : Reference) (there : home = some ref) := parkRest_move ((reference_of_setup collected).trans there)
    have halts (nowhere : home = none) := parkRest_halt ((reference_of_setup collected).trans nowhere)
    have frozen : (parkRest (s.atRise .park).parkGrant).scheduler.frozen = true := rfl
    have result : exec .park s = .next (((parkRest (s.atRise .park).parkGrant).setPassWanted false).respond (noPayload .ok)) := by
      refine (station_high s _ _ up).trans ?_
      rw [settled, taken, settle_frozen frozen]
    rw [arbiter] at arbiter'
    rw [pursuit] at pursuit'
    rw [notices] at notices'
    rw [entries] at scheduler
    rw [ports] at moves halts
    generalize parkRest (s.atRise .park).parkGrant = x at arbiter' pursuit' notices' scheduler setup record moves halts result
    refine ⟨_, result, ⟨rfl, rfl⟩, arbiter', pursuit', fun j r held => ?_, fun j none_ => ?_,
      fun j => (setup.records j).1, ?_, fun ref there => ?_, fun nowhere => ?_, notices', setup.classes, setup.time, setup.sweep, setup.pendant,
      setup.stationWindow, setup.pendantWindow⟩
    · have written := record j
      rw [show (s.atRise .park).recordAt j = some r from held] at written
      refine written.trans (congrArg some ?_)
      exact parked_eq s handles j r
    · have written := record j
      rw [show (s.atRise .park).recordAt j = none from none_] at written
      exact written
    · exact congrArg (fun y : Scheduler => { y with passWanted := false }) scheduler
    · exact moves ref there
    · exact halts nowhere
end


section
/-! An offer pass (R109, R110, R111): the walk over the DUE entries makes the offers of offersMade, and a second pass makes none. -/

namespace Sys2Proof.Machine

variable {s t v : State} {h : Handle} {r : Record} {e : RevisitEntry} {d : Direction} {L : StationLink} {b : Bool} {rest done : List RevisitEntry}

/-! ### One slot of the walk -/

theorem offerWalk_nothing {i : Fin 48} {l : List (Fin 48)} (nothing : s.offerable i = none) : offerWalk (i :: l) s = offerWalk l s := by
  rw [offerWalk, nothing]

theorem offerWalk_full {i : Fin 48} {l : List (Fin 48)} (offered : s.offerable i = some h) (answer : s.takeOffer h = (t, .full)) :
    offerWalk (i :: l) s = t := by
  rw [offerWalk, offered]
  dsimp only
  rw [answer]

theorem offerWalk_noAim {i : Fin 48} {l : List (Fin 48)} (offered : s.offerable i = some h) (answer : s.takeOffer h = (t, .noAim)) :
    offerWalk (i :: l) s = offerWalk l (t.miss h) := by
  rw [offerWalk, offered]
  dsimp only
  rw [answer]

theorem offerWalk_ok {i : Fin 48} {l : List (Fin 48)} (offered : s.offerable i = some h) (answer : s.takeOffer h = (t, .ok)) :
    offerWalk (i :: l) s = offerWalk l t := by
  rw [offerWalk, offered]
  dsimp only
  rw [answer]

/-- The record of an entry is not DORMANT: a pass goes by it. -/
def Passed (s : State) (e : RevisitEntry) : Prop := ∀ r, s.live e.handle = some r → r.state ≠ .dormant

theorem offerable_passed (found : s.entryAt e.handle.slot = some e) (passed : Passed s e) : s.offerable e.handle.slot = none := by
  rw [State.offerable, found]
  dsimp only
  split
  · cases live : s.live e.handle with
    | none => rfl
    | some r => exact if_neg (passed r live)
  · rfl

theorem offerable_dormant (found : s.entryAt e.handle.slot = some e) (due : e.status = .due) (live : s.live e.handle = some r)
    (dormant : r.state = .dormant) : s.offerable e.handle.slot = some e.handle := by
  rw [State.offerable, found]
  dsimp only
  rw [if_pos due, live]
  exact if_pos dormant

section
variable (running : s.arbiter.runMode = .running) (live : s.live h = some r) (dormant : r.state = .dormant)
include running live dormant

theorem takeOffer_noAim (nowhere : r.position = none) : s.takeOffer h = (s, .noAim) := by
  rw [State.takeOffer, if_neg (by rw [running]; exact nofun), live]
  dsimp only
  rw [if_neg (not_not_intro dormant), if_pos (by rw [nowhere]; rfl)]

theorem takeOffer_full (somewhere : r.position = some d) (full : 12 ≤ s.arbiter.queue.length) : s.takeOffer h = (s, .full) := by
  rw [State.takeOffer, if_neg (by rw [running]; exact nofun), live]
  dsimp only
  rw [if_neg (not_not_intro dormant), if_neg (by rw [somewhere]; exact nofun), if_pos (by simpa [State.queueFull] using full)]

theorem takeOffer_taken (somewhere : r.position = some d) (room : s.arbiter.queue.length < 12) :
    s.takeOffer h = (((s.setEntryStatus h.slot .offered).enqueue (requestOf h .revisit s.arbiter.priorities.revisit none)).arbitrate, .ok) := by
  rw [State.takeOffer, if_neg (by rw [running]; exact nofun), live]
  dsimp only
  rw [if_neg (not_not_intro dormant), if_neg (by rw [somewhere]; exact nofun), if_neg (by simpa [State.queueFull] using room)]
  rfl

end

/-! ### The walk against offersMade -/

/-- A state with another link and another trigger: what an offer pass neither reads nor answers for. -/
def behind (L : StationLink) (b : Bool) (v : State) : State := { v with link := L, scheduler := { v.scheduler with passWanted := b } }

/-- Where a pass stands: the DUE entries it has gone by, and those it has still to offer. -/
structure Passing (v : State) (done rest : List RevisitEntry) : Prop where
  due : dueEntries v = done ++ rest
  nodup : (v.scheduler.entries.map (·.handle.slot)).Nodup
  passed : ∀ e ∈ done, Passed v e
  running : v.arbiter.runMode = .running
  below : OffersStayBelow v
  unsent : v.arbiter.grant = none → v.ports.driveOut = [] ∧ v.ports.rangeOut = []
  counts : v.arbiter.arrivalCounter < 65501 + v.arbiter.queue.length
  countsFree : v.arbiter.grant = none → v.arbiter.arrivalCounter < 65500 + v.arbiter.queue.length

theorem Passing.listed (at_ : Passing v done (e :: rest)) : e ∈ v.scheduler.entries ∧ e.status = .due := by
  have mem : e ∈ dueEntries v := by
    rw [at_.due]
    exact List.mem_append_right _ (List.mem_cons_self ..)
  simpa [dueEntries] using mem

theorem Passing.found (at_ : Passing v done (e :: rest)) : v.entryAt e.handle.slot = some e := entryAt_of_mem v at_.nodup at_.listed.1

/-- A pass goes by an entry whose record is not DORMANT. -/
theorem Passing.goesBy (at_ : Passing v done (e :: rest)) (passed : Passed v e) : Passing v (done ++ [e]) rest :=
  { at_ with
    due := by rw [at_.due, List.append_assoc]; rfl
    passed := fun x mem => by
      rcases List.mem_append.mp mem with old | new
      · exact at_.passed x old
      · rw [List.mem_singleton.mp new]
        exact passed }

/-- The entries gone by stand in other slots than the entry that is offered. -/
theorem Passing.apart (at_ : Passing v done (e :: rest)) :
    (∀ x ∈ done, x.handle.slot ≠ e.handle.slot) ∧ withoutEntry e.handle.slot (dueEntries v) = done ++ rest := by
  have nodup : ((dueEntries v).map (·.handle.slot)).Nodup := at_.nodup.sublist (List.filter_sublist.map _)
  rw [at_.due, List.map_append, List.map_cons, List.nodup_append] at nodup
  obtain ⟨-, later, others⟩ := nodup
  have apart : ∀ x ∈ done, x.handle.slot ≠ e.handle.slot := fun x mem =>
    others _ (List.mem_map_of_mem mem) _ (List.mem_cons_self ..)
  have apart' : ∀ x ∈ rest, x.handle.slot ≠ e.handle.slot := fun x mem same =>
    (List.nodup_cons.mp later).1 (same ▸ List.mem_map_of_mem mem)
  refine ⟨apart, ?_⟩
  rw [at_.due, withoutEntry, List.filter_append, List.filter_cons_of_neg (by simp), List.filter_eq_self.mpr (by simpa using apart),
    List.filter_eq_self.mpr (by simpa using apart')]

/-- An entry that is no longer DUE is out of the DUE entries, and the others keep their order. -/
theorem dueEntries_entryOffered (i : Fin 48) : dueEntries (entryOffered v i) = withoutEntry i (dueEntries v) := by
  have each (l : List RevisitEntry) : (l.map fun e => if e.handle.slot = i then { e with status := .offered } else e).filter
      (fun e => decide (e.status = .due)) = withoutEntry i (l.filter fun e => decide (e.status = .due)) := by
    induction l with
    | nil => rfl
    | cons x xs ih =>
      by_cases here : x.handle.slot = i
      · by_cases due : x.status = .due
        · simp [here, due, withoutEntry, ih]
        · simp [here, due, withoutEntry, ih]
      · by_cases due : x.status = .due
        · simp [here, due, withoutEntry, ih]
        · simp [here, due, withoutEntry, ih]
  exact each _

theorem dueEntries_placeEntry {x : RevisitEntry} (waits : x.status ≠ .due) : dueEntries (v.placeEntry x) = withoutEntry x.handle.slot (dueEntries v) := by
  obtain ⟨before, later, placed, parts, -⟩ := placeEntry_splits v x
  have entries : dueEntries (v.placeEntry x) = (withoutEntry x.handle.slot v.scheduler.entries).filter fun e => decide (e.status = .due) := by
    rw [placed, ← parts]
    simp [dueEntries, waits]
  rw [entries, dueEntries, withoutEntry, withoutEntry, List.filter_filter, List.filter_filter]
  exact List.filter_congr fun y _ => Bool.and_comm _ _

theorem nodup_placeEntry {x : RevisitEntry} (nodup : (v.scheduler.entries.map (·.handle.slot)).Nodup) :
    ((v.placeEntry x).scheduler.entries.map (·.handle.slot)).Nodup := by
  obtain ⟨before, later, placed, parts, -⟩ := placeEntry_splits v x
  have others : ((before ++ later).map (·.handle.slot)).Nodup := by
    rw [parts]
    exact nodup.sublist (List.filter_sublist.map _)
  have fresh : x.handle.slot ∉ (before ++ later).map (·.handle.slot) := by
    rw [parts]
    simp [withoutEntry]
  rw [placed]
  simp only [List.map_append, List.map_cons] at others fresh ⊢
  exact List.nodup_middle.mpr (List.nodup_cons.mpr ⟨fresh, others⟩)

theorem passed_withRecord {x : RevisitEntry} (r : Record) (other : x.handle.slot ≠ h.slot) (passed : Passed v x) : Passed (v.withRecord h r) x :=
  fun y live => passed y ((live_withRecord_other v r other).symm.trans live)

/-! ### Each offer -/

theorem miss_behind (live : v.live h = some r) : (behind L b v).miss h = behind L b (offerMissed v h r) :=
  miss_live (s := behind L b v) live

theorem offerMissed_passing (at_ : Passing v done (e :: rest)) : Passing (offerMissed v e.handle r) done rest where
  due := by
    have waits : RevisitStatus.scheduled ≠ .due := nofun
    exact (dueEntries_placeEntry waits).trans at_.apart.2
  nodup := nodup_placeEntry at_.nodup
  passed := fun x mem => passed_withRecord _ (at_.apart.1 x mem) (at_.passed x mem)
  running := at_.running
  below := at_.below
  unsent := at_.unsent
  counts := at_.counts
  countsFree := at_.countsFree

theorem nodup_entryOffered {i : Fin 48} (nodup : (v.scheduler.entries.map (·.handle.slot)).Nodup) :
    ((entryOffered v i).scheduler.entries.map (·.handle.slot)).Nodup := by
  have same : (entryOffered v i).scheduler.entries.map (·.handle.slot) = v.scheduler.entries.map (·.handle.slot) := by
    refine List.map_map.trans (List.map_congr_left fun x _ => ?_)
    by_cases here : x.handle.slot = i <;> simp [here]
  rw [same]
  exact nodup

theorem takeOffer_queued {g : Request} (running : v.arbiter.runMode = .running) (live : v.live h = some r) (dormant : r.state = .dormant)
    (somewhere : r.position = some d) (room : v.arbiter.queue.length < 12) (granted : v.arbiter.grant = some g)
    (under : v.arbiter.priorities.revisit ≤ g.priority) (below : ∀ x ∈ v.arbiter.queue, x.request.priority ≤ g.priority)
    (counts : v.arbiter.arrivalCounter ≠ 65535) : (behind L b v).takeOffer h = (behind L b (offerQueued v h r), .ok) := by
  have entered : ((behind L b v).setEntryStatus h.slot .offered).enqueue (requestOf h .revisit v.arbiter.priorities.revisit none)
      = behind L b (offerQueued v h r) := enqueue_below (s := (behind L b v).setEntryStatus h.slot .offered) live counts
  have granted' : (behind L b (offerQueued v h r)).arbiter.grant = some g := granted
  rw [takeOffer_taken (s := behind L b v) running live dormant somewhere room]
  refine congrArg (·, Answer.ok) ((congrArg State.arbitrate entered).trans ?_)
  rw [arbitrate_granted granted', preemptionTest_below granted']
  intro x mem
  rcases List.mem_append.mp mem with old | new
  · exact below x old
  · rw [List.mem_singleton.mp new]
    exact under

theorem offerQueued_passing {g : Request} (at_ : Passing v done (e :: rest)) (granted : v.arbiter.grant = some g) :
    Passing (offerQueued v e.handle r) done rest where
  due := (dueEntries_entryOffered (v := v) e.handle.slot).trans at_.apart.2
  nodup := nodup_entryOffered (v := v) at_.nodup
  passed := fun x mem => passed_withRecord _ (at_.apart.1 x mem) (at_.passed x mem)
  running := at_.running
  below := by
    obtain ⟨under, below⟩ := at_.below.2 g granted
    refine ⟨fun none_ => absurd ((show v.arbiter.grant = none from none_).symm.trans granted) nofun, fun g' granted' => ?_⟩
    cases (granted.symm.trans granted' : some g = some g')
    refine ⟨under, fun x mem => ?_⟩
    rcases List.mem_append.mp mem with old | new
    · exact below x old
    · rw [List.mem_singleton.mp new]
      exact under
  unsent := fun none_ => absurd ((show v.arbiter.grant = none from none_).symm.trans granted) nofun
  counts := by
    have := at_.counts
    simp only [offerQueued, List.length_append, List.length_singleton]
    omega
  countsFree := fun none_ => absurd ((show v.arbiter.grant = none from none_).symm.trans granted) nofun

theorem slewedFresh_behind {q : Request} {u : State} (sent : u.ports.driveOut = [] ∧ u.ports.rangeOut = []) (same : u = behind L b v) :
    slewedFresh u q r d = behind L b (beamGranted (v.withRecord q.handle { r with state := .active .slewing }) q d) := by
  obtain ⟨drive, range⟩ := sent
  subst same
  have whole : slewedFresh (behind L b v) q r d = { behind L b (beamGranted (v.withRecord q.handle { r with state := .active .slewing }) q d) with
    ports := (slewedFresh (behind L b v) q r d).ports } := rfl
  have ports : (slewedFresh (behind L b v) q r d).ports = (movedTo v d).ports := by
    refine (sendMove_ports (behind L b v) d).trans ?_
    rw [drive]
    exact congrArg (fun l => ({ (movedTo v d).ports with rangeOut := l } : Ports)) range
  rw [whole, ports]
  rfl

theorem takeOffer_granted (running : v.arbiter.runMode = .running) (live : v.live h = some r) (dormant : r.state = .dormant)
    (somewhere : r.position = some d) (free : v.arbiter.grant = none) (queue : v.arbiter.queue = []) (stack : v.arbiter.stack = [])
    (unsent : v.ports.driveOut = [] ∧ v.ports.rangeOut = []) (counts : v.arbiter.arrivalCounter ≠ 65535) :
    ∃ b', (behind L b v).takeOffer h = (behind L b' (offerGranted v h r d), .ok) := by
  obtain ⟨b', slewed⟩ := enqueue_arbitrate_free (s := (behind L b v).setEntryStatus h.slot .offered)
    (q := requestOf h .revisit v.arbiter.priorities.revisit none) free running queue stack counts live
    (prediction_of_standsAt ((position_eq_some r d).mp somewhere) none v.now)
  refine ⟨b', ?_⟩
  have room : v.arbiter.queue.length < 12 := by
    rw [queue]
    exact Nat.zero_lt_succ _
  rw [takeOffer_taken (s := behind L b v) running live dormant somewhere room]
  refine congrArg (·, Answer.ok) (slewed.trans ?_)
  have taken := slewedFresh_behind (u := (behind L b v).setEntryStatus h.slot .offered) (v := entryOffered v h.slot) (b := b) (L := L) (r := r) (d := d)
    (q := requestOf h .revisit v.arbiter.priorities.revisit none) unsent rfl
  rw [taken]
  rfl

theorem offerGranted_passing (at_ : Passing v done (e :: rest)) (free : v.arbiter.grant = none) :
    Passing (offerGranted v e.handle r d) done rest where
  due := (dueEntries_entryOffered (v := v) e.handle.slot).trans at_.apart.2
  nodup := nodup_entryOffered (v := v) at_.nodup
  passed := fun x mem => passed_withRecord _ (at_.apart.1 x mem) (at_.passed x mem)
  running := at_.running
  below := by
    obtain ⟨queue, -⟩ := at_.below.1 free
    refine ⟨nofun, fun g' granted' => ?_⟩
    cases granted'
    refine ⟨le_rfl, fun x mem => ?_⟩
    have mem' : x ∈ v.arbiter.queue := mem
    rw [queue] at mem'
    exact nomatch mem'
  unsent := nofun
  counts := by
    have := at_.countsFree free
    show v.arbiter.arrivalCounter + 1 < 65501 + v.arbiter.queue.length
    omega
  countsFree := nofun

/-! ### The pass -/

/-- A pass has come to its end: every DUE entry gone by, or the queue full at the next offer. -/
def PassEnded (v : State) : Prop :=
  ∃ done rest, Passing v done rest ∧ ∀ e later, rest = e :: later → ∃ r d, v.live e.handle = some r ∧ r.state = .dormant ∧ r.position = some d
    ∧ 12 ≤ v.arbiter.queue.length

/-- The walk over what is left of a pass makes the offers of offersMade. -/
theorem offerWalk_behind (rest : List RevisitEntry) : ∀ (done : List RevisitEntry) (v : State) (b : Bool), Passing v done rest →
    (∃ b', offerWalk (rest.map fun e => e.handle.slot) (behind L b v) = behind L b' (offersMade rest v)) ∧ PassEnded (offersMade rest v) := by
  induction rest with
  | nil => exact fun done v b at_ => ⟨⟨b, rfl⟩, done, [], at_, nofun⟩
  | cons e rest ih =>
    intro done v b at_
    have found : (behind L b v).entryAt e.handle.slot = some e := at_.found
    have goesBy (passed : Passed v e) (made : offersMade (e :: rest) v = offersMade rest v) :
        (∃ b', offerWalk ((e :: rest).map fun e => e.handle.slot) (behind L b v) = behind L b' (offersMade (e :: rest) v))
          ∧ PassEnded (offersMade (e :: rest) v) := by
      rw [made, List.map_cons, offerWalk_nothing (offerable_passed found passed)]
      exact ih (done ++ [e]) v b (at_.goesBy passed)
    cases live : v.live e.handle with
    | none => exact goesBy (fun r held => nomatch live.symm.trans held) (offersMade_gone _ rest live)
    | some r =>
      by_cases dormant : r.state = .dormant
      · have offered : (behind L b v).offerable e.handle.slot = some e.handle := offerable_dormant found at_.listed.2 live dormant
        have running : (behind L b v).arbiter.runMode = .running := at_.running
        cases position : r.position with
        | none =>
          rw [offersMade_missed _ rest live dormant position, List.map_cons, offerWalk_noAim offered (takeOffer_noAim running live dormant position),
            miss_behind live]
          exact ih done _ b (offerMissed_passing at_)
        | some d =>
          by_cases full : 12 ≤ v.arbiter.queue.length
          · rw [offersMade_full _ rest live dormant position full, List.map_cons,
              offerWalk_full offered (takeOffer_full running live dormant position full)]
            refine ⟨⟨b, rfl⟩, done, e :: rest, at_, fun x later same => ?_⟩
            cases same
            exact ⟨r, d, live, dormant, position, full⟩
          · have room : v.arbiter.queue.length < 12 := Nat.lt_of_not_le full
            have counts : v.arbiter.arrivalCounter ≠ 65535 := by
              have := at_.counts
              omega
            rw [offersMade_taken _ rest live dormant position room, List.map_cons]
            cases granted : v.arbiter.grant with
            | none =>
              obtain ⟨queue, stack⟩ := at_.below.1 granted
              obtain ⟨b', taken⟩ := takeOffer_granted (L := L) (b := b) at_.running live dormant position granted queue stack (at_.unsent granted) counts
              rw [if_pos rfl, offerWalk_ok offered taken]
              exact ih done _ b' (offerGranted_passing at_ granted)
            | some g =>
              obtain ⟨under, below⟩ := at_.below.2 g granted
              rw [if_neg nofun, offerWalk_ok offered (takeOffer_queued at_.running live dormant position room granted under below counts)]
              exact ih done _ b (offerQueued_passing at_ granted)
      · exact goesBy (fun r' held => by rw [live] at held; cases held; exact dormant) (offersMade_busy _ rest live dormant)

/-- A pass over what a pass has left changes nothing: it goes by the entries of busy records, and the queue is full at the first other one. -/
theorem offerWalk_ended (rest : List RevisitEntry) (running : v.arbiter.runMode = .running)
    (full : ∀ e later, rest = e :: later → ∃ r d, v.live e.handle = some r ∧ r.state = .dormant ∧ r.position = some d ∧ 12 ≤ v.arbiter.queue.length)
    (done : List RevisitEntry) : (∀ e ∈ done ++ rest, v.entryAt e.handle.slot = some e ∧ e.status = .due) → (∀ e ∈ done, Passed v e) →
      offerWalk ((done ++ rest).map fun e => e.handle.slot) (behind L b v) = behind L b v := by
  induction done with
  | nil =>
    intro listed _
    cases rest with
    | nil => rfl
    | cons e later =>
      obtain ⟨r, d, live, dormant, position, many⟩ := full e later rfl
      obtain ⟨found, due⟩ := listed e (List.mem_cons_self ..)
      have offered : (behind L b v).offerable e.handle.slot = some e.handle := offerable_dormant found due live dormant
      exact offerWalk_full offered (takeOffer_full (s := behind L b v) running live dormant position many)
  | cons x done ih =>
    intro listed passed
    have found : (behind L b v).entryAt x.handle.slot = some x := (listed x (List.mem_cons_self ..)).1
    have busy : Passed (behind L b v) x := passed x (List.mem_cons_self ..)
    rw [List.cons_append, List.map_cons, offerWalk_nothing (offerable_passed found busy)]
    exact ih (fun e mem => listed e (List.mem_cons_of_mem _ mem)) fun e mem => passed e (List.mem_cons_of_mem _ mem)

theorem offerPass_ended (ended : PassEnded v) : (behind L b v).offerPass = behind L b v := by
  obtain ⟨done, rest, at_, full⟩ := ended
  have slots : (behind L b v).dueSlots = (done ++ rest).map fun e => e.handle.slot := by
    rw [← at_.due]
    rfl
  rw [State.offerPass, slots]
  refine offerWalk_ended rest at_.running full done (fun e mem => ?_) at_.passed
  rw [← at_.due] at mem
  obtain ⟨listed, due⟩ := List.mem_filter.mp mem
  exact ⟨entryAt_of_mem v at_.nodup listed, of_decide_eq_true due⟩

theorem passLoop_ended (n : Nat) (ended : PassEnded v) : passLoop n (behind L b v) = behind L false v := by
  have stops (n : Nat) : passLoop n (behind L false v) = behind L false v := by
    cases n with
    | zero => rfl
    | succ n => exact if_neg fun both => nomatch both.1
  cases n with
  | zero => rfl
  | succ n =>
    rw [passLoop]
    split
    · have passed : ((behind L b v).setPassWanted false).offerPass = behind L false v := offerPass_ended (v := v) (L := L) (b := false) ended
      rw [passed]
      exact (congrArg (passLoop n) (if_neg (Nat.lt_irrefl _))).trans (stops n)
    · rfl

/-- The passes of an event that a trigger has reached: one pass makes all the offers (R109, R110). -/
theorem settle_offers {n : Nat} (released : v.scheduler.frozen = false) (at_ : Passing v [] (dueEntries v)) :
    (behind L true v).settle n = behind L false (offersMade (dueEntries v) v) := by
  obtain ⟨⟨b', walked⟩, ended⟩ := offerWalk_behind (L := L) (dueEntries v) [] v false at_
  have passed : ((behind L true v).setPassWanted false).offerPass = behind L b' (offersMade (dueEntries v) v) := walked
  have wanted : (if (behind L true v).arbiter.queue.length < n then (behind L true v).setPassWanted true else behind L true v) = behind L true v :=
    ite_self _
  rw [State.settle, wanted, passLoop]
  dsimp only
  rw [if_pos ⟨rfl, released⟩, passed]
  split
  · exact passLoop_ended (v := offersMade (dueEntries v) v) (b := true) _ ended
  · exact passLoop_ended (v := offersMade (dueEntries v) v) (b := b') _ ended

end Sys2Proof.Machine
end


section
/-! UNPARK (R100, R116): the home check, the scheduler released, and its pass. -/

namespace Sys2Proof.Machine

variable {s t v : State} {h : Handle} {r : Record} {e : RevisitEntry} {d : Direction} {L : StationLink} {b : Bool} {ref : Reference}

/-! ### What offers leave as it is -/

/-- What holds after every single offer holds after all of them. -/
theorem offersMade_induction {p : State → Prop} (missed : ∀ v h r, p v → p (offerMissed v h r)) (granted : ∀ v h r d, p v → p (offerGranted v h r d))
    (queued : ∀ v h r, p v → p (offerQueued v h r)) (l : List RevisitEntry) : ∀ v, p v → p (offersMade l v) := by
  induction l with
  | nil => exact fun v base => base
  | cons e rest ih =>
    intro v base
    cases live : v.live e.handle with
    | none =>
      rw [offersMade_gone _ rest live]
      exact ih v base
    | some r =>
      by_cases dormant : r.state = .dormant
      · cases position : r.position with
        | none =>
          rw [offersMade_missed _ rest live dormant position]
          exact ih _ (missed v e.handle r base)
        | some d =>
          by_cases full : 12 ≤ v.arbiter.queue.length
          · rw [offersMade_full _ rest live dormant position full]
            exact base
          · rw [offersMade_taken _ rest live dormant position (Nat.lt_of_not_le full)]
            refine ih _ ?_
            split
            · exact granted v e.handle r d base
            · exact queued v e.handle r base
      · rw [offersMade_busy _ rest live dormant]
        exact ih v base

theorem offersMade_passWanted (l : List RevisitEntry) (calm : v.scheduler.passWanted = false) : (offersMade l v).scheduler.passWanted = false :=
  offersMade_induction (p := fun u => u.scheduler.passWanted = false) (fun _ _ _ => id) (fun _ _ _ _ => id) (fun _ _ _ => id) l v calm

theorem offersMade_link (l : List RevisitEntry) (bits : v.link.sdo = []) (next : v.link.sdoNext = 0) : (offersMade l v).link = v.link := by
  refine offersMade_induction (p := fun u => u.link = v.link) (fun _ _ _ => id) (fun u h r d same => ?_) (fun _ _ _ => id) l v rfl
  have cleared : (offerGranted u h r d).link = { u.link with sdo := [], sdoNext := 0 } := rfl
  rw [cleared, same, ← bits, ← next]

theorem behind_self (calm : v.scheduler.passWanted = false) : behind v.link false v = v := by
  rw [← calm]
  rfl

/-! ### UNPARK -/

theorem exec_unpark : exec .unpark s = s.station .unpark (settled takeUnpark) := rfl

theorem takeUnpark_parked (parked : s.arbiter.runMode = .parked) : takeUnpark s = (s.unparkFromParked, noPayload .ok) :=
  if_neg (by rw [parked]; exact nofun)

/-- The part RUNNING, before the home check. -/
theorem enterHomeCheck_none (nowhere : (s.recordAt 0).bind (·.reference) = none) : s.enterHomeCheck = s :=
  if_neg (by rw [nowhere]; exact nofun)

theorem enterHomeCheck_some (there : (s.recordAt 0).bind (·.reference) = some ref) : s.enterHomeCheck = s.enqueue s.homeCheck :=
  if_pos (by rw [there]; rfl)

theorem select_nothing (queue : s.arbiter.queue = []) (stack : s.arbiter.stack = []) : s.select false = s := by
  rw [State.select, queue, stack]
  exact ite_self _

section
variable (free : s.arbiter.grant = none) (queue : s.arbiter.queue = []) (stack : s.arbiter.stack = [])
include queue stack

theorem unparkFromParked_none (nowhere : (s.recordAt 0).bind (·.reference) = none) :
    s.unparkFromParked = ((s.setRunMode .running).setFrozen false).setPassWanted true := by
  have entered : (s.setRunMode .running).enterHomeCheck = s.setRunMode .running := enterHomeCheck_none nowhere
  have selected : (s.setRunMode .running).select false = s.setRunMode .running := select_nothing queue stack
  rw [State.unparkFromParked, entered, selected]

include free

theorem unparkFromParked_some (record : s.recordAt 0 = some r) (home : r.kind = .home) (there : r.reference = some ref)
    (counts : s.arbiter.arrivalCounter ≠ 65535) :
    s.unparkFromParked = ((slewedFresh (s.setRunMode .running) s.homeCheck r ref.direction).setFrozen false).setPassWanted true := by
  have found : ((s.setRunMode .running).recordAt 0).bind (·.reference) = some ref := by
    rw [show (s.setRunMode .running).recordAt 0 = some r from record]
    exact there
  have entered : (s.setRunMode .running).enterHomeCheck = (s.setRunMode .running).enqueue s.homeCheck := enterHomeCheck_some found
  have live : (s.setRunMode .running).live s.homeCheck.handle = some r := (live_handleOf s 0).trans record
  have stands : r.StandsAt ref.direction := ⟨by rw [home]; exact nofun, .inl ⟨ref, there, rfl⟩⟩
  obtain ⟨b, slewed⟩ := enqueue_arbitrate_free (s := s.setRunMode .running) (q := s.homeCheck) free rfl queue stack counts live
    (prediction_of_standsAt stands none _)
  have free' : ((s.setRunMode .running).enqueue s.homeCheck).arbiter.grant = none := by
    rw [enqueue_below live counts]
    exact free
  rw [arbitrate_free free'] at slewed
  rw [State.unparkFromParked, entered, slewed]
  rfl

theorem takeUnpark_some (parked : s.arbiter.runMode = .parked) (record : s.recordAt 0 = some r) (home : r.kind = .home) (there : r.reference = some ref)
    (counts : s.arbiter.arrivalCounter ≠ 65535) :
    takeUnpark s = (((slewedFresh (s.setRunMode .running) s.homeCheck r ref.direction).setFrozen false).setPassWanted true, noPayload .ok) := by
  rw [takeUnpark_parked parked, unparkFromParked_some free queue stack record home there counts]

omit free in
theorem takeUnpark_none (parked : s.arbiter.runMode = .parked) (record : s.recordAt 0 = some r) (nowhere : r.reference = none) :
    takeUnpark s = (((s.setRunMode .running).setFrozen false).setPassWanted true, noPayload .ok) := by
  have nowhere' : (s.recordAt 0).bind (·.reference) = none := by
    rw [record]
    exact nowhere
  rw [takeUnpark_parked parked, unparkFromParked_none queue stack nowhere']

end

/-- A settled command that leaves the scheduler told and the entries DUE for an offer pass. -/
theorem station_passes_offers {i : Instr} {take : State → State × Response} {a : Answer} (up : s.resetnLow = false)
    (taken : take (s.atRise i) = (behind (s.atRise i).link true v, noPayload a)) (released : v.scheduler.frozen = false)
    (calm : v.scheduler.passWanted = false) (at_ : Passing v [] (dueEntries v)) :
    s.station i (settled take) = .next (answeredWith s i (noPayload a) (offersMade (dueEntries v) v)) := by
  have calm' := offersMade_passWanted (dueEntries v) calm
  rw [station_high s _ _ up, settled, taken]
  dsimp only
  rw [settle_offers released at_]
  generalize offersMade (dueEntries v) v = w at calm'
  have same : behind (s.atRise i).link false w = { w with link := (s.atRise i).link } := by
    rw [← calm']
    rfl
  rw [same]
  rfl

section
variable (up : s.resetnLow = false) (parked : s.arbiter.runMode = .parked) (free : s.arbiter.grant = none) (queue : s.arbiter.queue = [])
  (stack : s.arbiter.stack = []) (record : s.recordAt 0 = some r)
include up parked queue stack record

theorem exec_unpark_none (none_ : NothingDue s) (nowhere : r.reference = none) :
    exec .unpark s = .next (answeredBy s .unpark (noPayload .ok)
      { s with arbiter := { s.arbiter with runMode := .running }, scheduler := { s.scheduler with frozen := false } }) := by
  have taken := takeUnpark_none (s := s.atRise .unpark) queue stack parked record nowhere
  exact station_settles (t := { s with arbiter := { s.arbiter with runMode := .running }, scheduler := { s.scheduler with frozen := false } })
    (b := true) up taken none_.2 none_.1 rfl

/-- The part RUNNING with the scheduler released, before its pass. -/
def unparked (s : State) : State :=
  sentNothing { s with arbiter := { s.arbiter with runMode := .running }, scheduler := { s.scheduler with frozen := false } }

theorem exec_unpark_pass (calm : s.scheduler.passWanted = false) (counts : s.arbiter.arrivalCounter < 65500)
    (nodup : (s.scheduler.entries.map (·.handle.slot)).Nodup) (free : s.arbiter.grant = none) (nowhere : r.reference = none) :
    exec .unpark s = .next (answeredWith s .unpark (noPayload .ok) (offersMade (dueEntries s) (unparked s))) := by
  have taken := takeUnpark_none (s := s.atRise .unpark) queue stack parked record nowhere
  refine station_passes_offers (v := unparked s) up taken rfl calm ⟨rfl, nodup, nofun, rfl, ⟨fun _ => ⟨queue, stack⟩, fun g granted => ?_⟩,
    fun _ => ⟨rfl, rfl⟩, Nat.lt_of_lt_of_le counts (by omega), fun _ => Nat.lt_of_lt_of_le counts (by omega)⟩
  exact nomatch free.symm.trans granted

variable (home : r.kind = .home) (there : r.reference = some ref)
include free home there

omit up in
theorem takeUnpark_atRise (counts : s.arbiter.arrivalCounter ≠ 65535) : takeUnpark (s.atRise .unpark)
    = (((slewedFresh ((s.atRise .unpark).setRunMode .running) (s.atRise .unpark).homeCheck r ref.direction).setFrozen false).setPassWanted true,
      noPayload .ok) := by
  have record' : (s.atRise .unpark).recordAt 0 = some r := record
  have parked' : (s.atRise .unpark).arbiter.runMode = .parked := parked
  have counts' : (s.atRise .unpark).arbiter.arrivalCounter ≠ 65535 := counts
  exact takeUnpark_some free queue stack parked' record' home there counts'

/-- The part with the home check granted, before the pass. -/
def homeChecking (s : State) (r : Record) (d : Direction) : State :=
  beamGranted ((unparked s).withRecord (s.handleOf 0) { r with state := .active .slewing }) (requestOf (s.handleOf 0) .internal 7 none) d

theorem exec_unpark_checks (none_ : NothingDue s) (counts : s.arbiter.arrivalCounter ≠ 65535) :
    exec .unpark s = .next (answeredWith s .unpark (noPayload .ok) (homeChecking s r ref.direction)) := by
  have taken := takeUnpark_atRise parked free queue stack record home there counts
  have due : (((slewedFresh ((s.atRise .unpark).setRunMode .running) (s.atRise .unpark).homeCheck r ref.direction).setFrozen false).setPassWanted
    true).dueSlots = [] := by
    rw [State.dueSlots, show ((((slewedFresh ((s.atRise .unpark).setRunMode .running) (s.atRise .unpark).homeCheck r ref.direction).setFrozen
      false).setPassWanted true).scheduler.entries) = s.scheduler.entries from rfl]
    exact none_.2
  have high : exec .unpark s = .next ((settled takeUnpark (s.atRise .unpark)).1.respond (settled takeUnpark (s.atRise .unpark)).2) :=
    station_high s _ _ up
  rw [high, settled, taken]
  dsimp only
  rw [settle_nothingDue _ due]
  have same : homeChecking s r ref.direction = (homeChecking s r ref.direction).setPassWanted false := by
    rw [← none_.1]
    rfl
  rw [same]
  rfl

theorem exec_unpark_checks_pass (calm : s.scheduler.passWanted = false) (counts : s.arbiter.arrivalCounter < 65500)
    (nodup : (s.scheduler.entries.map (·.handle.slot)).Nodup) (revisit : s.arbiter.priorities.revisit ≤ 6) :
    exec .unpark s = .next (answeredWith s .unpark (noPayload .ok) (offersMade (dueEntries s) (homeChecking s r ref.direction))) := by
  have taken := takeUnpark_atRise parked free queue stack record home there (by omega)
  have counts' : s.arbiter.arrivalCounter + 1 < 65501 + s.arbiter.queue.length := by omega
  refine station_passes_offers (v := homeChecking s r ref.direction) up taken rfl calm ⟨rfl, nodup, nofun, rfl, ⟨nofun, fun g granted => ?_⟩, nofun,
    counts', nofun⟩
  cases granted
  refine ⟨Nat.le_succ_of_le revisit, fun x mem => ?_⟩
  have mem' : x ∈ s.arbiter.queue := mem
  rw [queue] at mem'
  exact nomatch mem'

end

end Sys2Proof.Machine

open Sys2Proof Sys2Proof.Machine

/-- Settles O31: the home check takes the free beam at once; the pass that follows makes the offers of offersMade. -/
theorem unparkStartsHomeCheck : Obligations.UnparkStartsHomeCheck := by
  unfold Obligations.UnparkStartsHomeCheck
  intro s up
  refine ⟨fun none_ running => ?_, fun none_ parked free queue stack counts r record home => ⟨fun nowhere => ?_, fun ref there => ?_⟩,
    fun calm parked free queue stack counts revisit nodup r record home => ?_⟩
  · have taken : takeUnpark (s.atRise .unpark) = (s.atRise .unpark, noPayload .already) := if_pos running
    exact station_leaves (t := s) up (settled_unchanged (s := s.atRise .unpark) none_.1 taken) rfl
  · exact exec_unpark_none up parked queue stack record none_ nowhere
  · exact exec_unpark_checks up parked free queue stack record home there none_ (Nat.ne_of_lt counts)
  · intro opened passes
    exact ⟨fun nowhere => exec_unpark_pass up parked queue stack record calm counts nodup free nowhere,
      fun ref there => exec_unpark_checks_pass up parked free queue stack record home there calm counts nodup revisit⟩
end


section
/-! The expiries of the pursuit's deadlines (R61, R67, R71, R74). -/

namespace Sys2Proof.Machine

variable {s t : State} {g : Request} {c : Context} {r : Record} {d : Time}

theorem exec_coast : exec .coastDeadlineExpiry s = s.ownEvent fun s => if s.coastExpired then s.takeCoastExpiry else s := rfl

theorem exec_search : exec .searchDeadlineExpiry s = s.ownEvent fun s => if s.searchExpired then s.pursuitLost else s := rfl

theorem exec_fixWait : exec .fixWaitExpiry s = s.ownEvent fun s => if s.fixWaitExpired then s.takeFixWaitExpiry else s := rfl

/-- A deadline that has not come has no effect. -/
theorem exec_own_untimely {i : Instr} {p : State → Bool} {f : State → State} (runs : exec i s = s.ownEvent fun s => if p s then f s else s)
    (up : s.resetnLow = false) (calm : s.scheduler.passWanted = false) (untimely : ¬p s.quiet = true) : exec i s = .next (sentNothing s) :=
  exec_own runs up calm (if_neg untimely) rfl rfl

theorem Pursuing.exec_coast (serves : Pursuing s g c r) (timely : DeadlineReached s d) (set_ : c.coastDeadline = some d) {p : Direction}
    (predicted : r.prediction g.aim s.time.count = some p) : exec .coastDeadlineExpiry s = .next (searchBegun s c r p) := by
  have expired : s.quiet.coastExpired = true := coastExpired_iff.mpr ⟨c, d, serves.context, set_, timely⟩
  have searches : s.quiet.takeCoastExpiry = searchBegun s c r p := by
    have live : s.quiet.live c.target = some r := serves.record
    rw [State.takeCoastExpiry, show s.quiet.pursuit = some c from serves.context]
    dsimp only
    rw [live]
    dsimp only
    rw [serves.quiet.targetPrediction predicted, startSearch_quiet p serves.record]
  exact exec_own_calm Machine.exec_coast serves.up ((if_pos expired).trans searches) serves.calm rfl

theorem Pursuing.exec_fixWait (serves : Pursuing s g c r) (timely : DeadlineReached s d) (set_ : c.fixWait = some d) :
    exec .fixWaitExpiry s = .next (rangeAsked { s with pursuit := some { c with rangeInFlight := true, fixWait := none } }) := by
  have expired : s.quiet.fixWaitExpired = true := fixWaitExpired_iff.mpr ⟨c, d, serves.context, set_, timely⟩
  have asks : s.quiet.takeFixWaitExpiry = rangeAsked { s with pursuit := some { c with rangeInFlight := true, fixWait := none } } := by
    rw [State.takeFixWaitExpiry, show s.quiet.pursuit = some c from serves.context]
    rfl
  exact exec_own_calm Machine.exec_fixWait serves.up ((if_pos expired).trans asks) serves.calm rfl

theorem Pursuing.search_lost (serves : Pursuing s g c r) {sr : Search} (timely : DeadlineReached s sr.deadline) (set_ : c.search = some sr) :
    (if s.quiet.searchExpired then s.quiet.pursuitLost else s.quiet) = (s.setContext (some c)).quiet.pursuitLost := by
  have expired : s.quiet.searchExpired = true := searchExpired_iff.mpr ⟨c, sr, serves.context, set_, timely⟩
  have self : s.setContext (some c) = s := by
    rw [← serves.context]
    rfl
  rw [if_pos expired, self]

end Sys2Proof.Machine
end

section
/-! A preemption's state as the rules put it (R89 to R92): beamTaken. -/

namespace Sys2Proof.Machine

variable {s t y : State} {g q : Request} {r rg : Record} {k : Handle} {d : Direction} {locked : Bool}

/-- The bottom entry of a full stack names a live record. -/
def BottomLives (t : State) : Prop := ∀ x, t.arbiter.stack[3]? = some x → t.live x.handle ≠ none

theorem stackPushed_none (room : t.arbiter.stack[3]? = none) : stackPushed t g = t.setStack (g :: t.arbiter.stack.take 3) := by
  rw [stackPushed, room]
  rfl

theorem stackPushed_some {bottom : Request} {rb : Record} (full : t.arbiter.stack[3]? = some bottom) (live : t.live bottom.handle = some rb) :
    stackPushed t g = ((t.withRecord bottom.handle (droppedAs rb)).judgeLine).setStack (g :: t.arbiter.stack.take 3) := by
  rw [stackPushed, full]
  dsimp only
  rw [live]
  rfl

theorem stackPushed_eq (bottom : BottomLives t) : stackPushed t g = (bottomDropped t).setStack (g :: t.arbiter.stack.take 3) := by
  cases full : t.arbiter.stack[3]? with
  | none => rw [stackPushed_none full, bottomDropped_none full]
  | some x =>
    obtain ⟨rb, live⟩ := Option.ne_none_iff_exists'.mp (bottom x full)
    rw [stackPushed_some full live, bottomDropped_some full, modifyRecord_live _ _ live]

theorem disposed_eq_setAside (bottom : BottomLives t) : disposed t g r locked = setAside t g r locked := by
  rw [disposed, setAside, stackPushed_eq bottom]
  rfl

theorem bottomDropped_beamLeft : bottomDropped (beamLeft t) = beamLeft (bottomDropped t) := by
  have stack : (beamLeft t).arbiter.stack = t.arbiter.stack := rfl
  cases full : t.arbiter.stack[3]? with
  | none => rw [bottomDropped_none (stack ▸ full), bottomDropped_none full]
  | some x =>
    rw [bottomDropped_some (t := beamLeft t) (stack ▸ full), bottomDropped_some full]
    have same : (beamLeft t).live x.handle = t.live x.handle := rfl
    cases live : t.live x.handle with
    | none => rw [modifyRecord_none _ _ (same.trans live), modifyRecord_none _ _ live]; rfl
    | some y => rw [modifyRecord_live _ _ (same.trans live), modifyRecord_live _ _ live]; rfl

theorem disposed_beamLeft : disposed (beamLeft t) g r locked = beamLeft (disposed t g r locked) := by
  by_cases back : g.origin = .revisit ∨ g.origin = .internal
  · rw [disposed_back back, disposed_back back]
    rfl
  · have plain := plain_of_not_back back
    cases auto : r.autoResume with
    | true =>
      rw [disposed_pushed plain auto, disposed_pushed plain auto, bottomDropped_beamLeft]
      rfl
    | false =>
      rw [disposed_ended plain auto, disposed_ended plain auto]
      rfl

theorem slewOn_beamLeft (sent : t.ports.driveOut = [] ∧ t.ports.rangeOut = []) :
    slewOn (beamLeft t) q r d = behind t.link t.scheduler.passWanted (beamPassed t q r d t.arbiter.queue t.arbiter.stack) := by
  obtain ⟨drive, range⟩ := sent
  have whole : slewOn (beamLeft t) q r d = { behind t.link t.scheduler.passWanted (beamPassed t q r d t.arbiter.queue t.arbiter.stack) with
    ports := (slewOn (beamLeft t) q r d).ports } := rfl
  have ports : (slewOn (beamLeft t) q r d).ports = (beamPassed t q r d t.arbiter.queue t.arbiter.stack).ports := by
    refine (sendMove_ports (beamLeft t) d).trans ?_
    rw [show (beamLeft t).ports.driveOut = [] from drive]
    exact congrArg (fun l => ({ (beamPassed t q r d t.arbiter.queue t.arbiter.stack).ports with rangeOut := l } : Ports)) range
  rw [whole, ports]
  rfl

/-- The request that preempts on the beam, and the grant's record set aside. -/
theorem slewOn_disposed (sent : y.ports.driveOut = [] ∧ y.ports.rangeOut = []) (bottom : BottomLives y) :
    slewOn (disposed (beamLeft y) g rg locked) q r d = behind y.link y.scheduler.passWanted (beamTaken y g rg locked q r d) := by
  obtain ⟨-, ports, scheduler, link⟩ := disposed_fields (t := y) (g := g) (r := rg) (locked := locked)
  rw [disposed_beamLeft, slewOn_beamLeft (by rw [ports]; exact sent), link, scheduler, disposed_eq_setAside bottom]
  rfl

/-- A record's state before the slew does not show after it. -/
theorem slewOn_withRecord (x : Record) : slewOn (t.withRecord q.handle x) q r d = slewOn t q r d :=
  withRecord_withRecord (((t.setGrant (some q)).setContext (some (Context.fresh q d))).sendMove d) q.handle _ _

theorem bottomDropped_withRecord {x : Record} (live : t.live k = some r) (same : x.notices = r.notices) (apart : BottomApart t k.slot) :
    bottomDropped (t.withRecord k x) = (bottomDropped t).withRecord k x := by
  have stack : (t.withRecord k x).arbiter.stack = t.arbiter.stack := rfl
  cases full : t.arbiter.stack[3]? with
  | none => rw [bottomDropped_none (stack ▸ full), bottomDropped_none full]
  | some bottom =>
    have live' : (t.modifyRecord bottom.handle droppedAs).live k = some r := (live_modifyRecord_other t _ (apart bottom full).symm).trans live
    rw [bottomDropped_some (t := t.withRecord k x) (stack ▸ full), bottomDropped_some full, modifyRecord_withRecord_other _ _ _ (apart bottom full),
      judgeLine_withRecord _ _ live' same]

/-- A disposal and a write to a record that it does not touch may change places. -/
theorem disposed_withRecord {x : Record} (live : t.live k = some r) (same : x.notices = r.notices) (other : k.slot ≠ g.handle.slot)
    (apart : BottomApart t k.slot) : disposed (t.withRecord k x) g rg locked = (disposed t g rg locked).withRecord k x := by
  by_cases back : g.origin = .revisit ∨ g.origin = .internal
  · rw [disposed_back back, disposed_back back, withRecord_comm t _ _ other.symm]
    rfl
  · have plain := plain_of_not_back back
    cases auto : rg.autoResume with
    | true =>
      rw [disposed_pushed plain auto, disposed_pushed plain auto, bottomDropped_withRecord live same apart]
      exact withRecord_comm ((bottomDropped t).setStack (g :: t.arbiter.stack.take 3)) _ _ other.symm
    | false =>
      have live' : (t.withRecord g.handle { unlatched rg locked with
          state := .dormant, outcome := .preempted, notices := rg.notices ||| recordBit .drop }).live k = some r :=
        (live_withRecord_other t _ other).trans live
      rw [disposed_ended plain auto, disposed_ended plain auto, withRecord_comm t _ _ other.symm, judgeLine_withRecord _ _ live' same]

end Sys2Proof.Machine
end


section
/-! A due time's expiry (R108): the entry DUE, and the scheduler's pass (R109 to R111). -/

namespace Sys2Proof.Machine

variable {s t v : State} {g : Request} {c : Context} {r rg : Record} {d : Direction} {e : RevisitEntry} {before later : List RevisitEntry}
  {st : RevisitStatus}

theorem exec_dueTime : exec .dueTimeExpiry s = s.ownEvent (·.takeDueExpiry) := rfl

/-- The part with one entry's status written, nothing sent. -/
def markedAs (s : State) (before : List RevisitEntry) (e : RevisitEntry) (later : List RevisitEntry) (st : RevisitStatus) : State :=
  sentNothing { s with scheduler := { s.scheduler with entries := before ++ { e with status := st } :: later } }

/-- A status written to the one entry of a slot. -/
theorem mark_entry (x : RevisitEntry) (others : ∀ y ∈ before ++ later, y.handle.slot ≠ x.handle.slot) :
    ((before ++ x :: later).map fun y => if y.handle.slot = x.handle.slot then { y with status := st } else y) = before ++ { x with status := st } :: later := by
  have kept (l : List RevisitEntry) (apart : ∀ y ∈ l, y.handle.slot ≠ x.handle.slot) :
      (l.map fun y => if y.handle.slot = x.handle.slot then { y with status := st } else y) = l :=
    (List.map_congr_left fun y mem => if_neg (apart y mem)).trans (List.map_id' l)
  rw [List.map_append, List.map_cons, if_pos rfl, kept before fun y mem => others y (List.mem_append_left _ mem),
    kept later fun y mem => others y (List.mem_append_right _ mem)]

section
variable (split : s.scheduler.entries = before ++ e :: later) (scheduled : e.status = .scheduled) (timely : DeadlineReached s e.due)
  (others : ∀ x ∈ before ++ later, x.handle.slot ≠ e.handle.slot) (first : ∀ x ∈ before, x.status = .scheduled → ¬DeadlineReached s x.due)
include split

theorem nodup_marked (nodup : (s.scheduler.entries.map (·.handle.slot)).Nodup) :
    ((markedAs s before e later st).scheduler.entries.map (·.handle.slot)).Nodup := by
  have same : (markedAs s before e later st).scheduler.entries.map (·.handle.slot) = s.scheduler.entries.map (·.handle.slot) := by
    rw [split]
    simp [markedAs, sentNothing]
  rw [same]
  exact nodup

omit split in
include others in
theorem entryAt_marked : (markedAs s before e later st).entryAt e.handle.slot = some { e with status := st } := by
  have absent : before.find? (fun y => decide (y.handle.slot = e.handle.slot)) = none :=
    List.find?_eq_none.mpr fun y mem => by simpa using others y (List.mem_append_left _ mem)
  show (before ++ { e with status := st } :: later).find? (fun y => decide (y.handle.slot = e.handle.slot)) = _
  rw [List.find?_append, absent]
  simp

theorem dueEntries_marked (none_ : s.dueSlots = []) : dueEntries (markedAs s before e later .due) = [{ e with status := .due }] := by
  have waits := dueSlots_eq_nil_iff.mp none_
  rw [split] at waits
  have none' (l : List RevisitEntry) (sub : ∀ y ∈ l, y.status ≠ .due) : l.filter (fun y => decide (y.status = .due)) = [] :=
    List.filter_eq_nil_iff.mpr fun y mem => by simpa using sub y mem
  show (before ++ { e with status := .due } :: later).filter _ = _
  rw [List.filter_append, none' before fun y mem => waits y (List.mem_append_left _ mem), List.filter_cons_of_pos (by simp),
    none' later fun y mem => waits y (List.mem_append_right _ (List.mem_cons_of_mem _ mem))]
  rfl

omit split in
include others in
theorem entryOffered_marked : entryOffered (markedAs s before e later .due) e.handle.slot = markedAs s before e later .offered := by
  have marked := mark_entry (st := .offered) { e with status := .due } others
  exact congrArg (fun l => sentNothing { s with scheduler := { s.scheduler with entries := l } }) marked

include others scheduled timely first

/-- The entry whose due time has come becomes DUE, and the scheduler is told. -/
theorem takeDueExpiry_marked : s.quiet.takeDueExpiry = behind s.quiet.link true (markedAs s before e later .due) := by
  have found : s.quiet.dueEntry = some e := by
    have absent : before.find? (fun x => decide (x.status = .scheduled) && reached s.quiet.now x.due) = none := by
      refine List.find?_eq_none.mpr fun x mem => ?_
      intro both
      obtain ⟨is, come⟩ := Bool.and_eq_true_iff.mp both
      exact first x mem (of_decide_eq_true is) (reached_iff.mp come)
    have come : reached s.quiet.now e.due = true := reached_iff.mpr timely
    rw [State.dueEntry, show s.quiet.scheduler.entries = before ++ e :: later from split, List.find?_append, absent]
    simp [scheduled, come]
  have entries : s.quiet.scheduler.entries = before ++ e :: later := split
  rw [State.takeDueExpiry, found]
  dsimp only
  rw [State.setEntryStatus, entries, mark_entry e others]
  rfl

theorem exec_dueTime_marked (up : s.resetnLow = false) :
    exec .dueTimeExpiry s = .next ((behind s.quiet.link true (markedAs s before e later .due)).settle s.arbiter.queue.length) := by
  rw [exec_dueTime, ownEvent_high s _ up, takeDueExpiry_marked split scheduled timely others first]

end

theorem behind_marked (calm : s.scheduler.passWanted = false) : behind s.quiet.link false (markedAs s before e later st) = markedAs s before e later st :=
  behind_self (v := markedAs s before e later st) calm

/-! ### The pass -/

/-- A pass that takes the one offer it makes. -/
theorem settle_one {n : Nat} {L : StationLink} {x : RevisitEntry} (due : dueEntries v = [x]) (found : v.entryAt x.handle.slot = some x)
    (released : v.scheduler.frozen = false) (live : v.live x.handle = some r) (dormant : r.state = .dormant)
    (taken : (behind L false v).takeOffer x.handle = (t, .ok)) (none_ : t.dueSlots = []) :
    (behind L true v).settle n = t.setPassWanted false := by
  have is : x.status = .due := by
    have mem : x ∈ dueEntries v := by
      rw [due]
      exact List.mem_singleton.mpr rfl
    exact of_decide_eq_true (List.mem_filter.mp mem).2
  have offered : (behind L false v).offerable x.handle.slot = some x.handle := offerable_dormant found is live dormant
  have slots : (behind L false v).dueSlots = [x.handle.slot] := by
    rw [dueSlots_eq]
    exact congrArg (List.map fun e : RevisitEntry => e.handle.slot) due
  have passed : ((behind L true v).setPassWanted false).offerPass = t := by
    show offerWalk (behind L false v).dueSlots (behind L false v) = t
    rw [slots, offerWalk_ok offered taken]
    rfl
  have wanted : (if (behind L true v).arbiter.queue.length < n then (behind L true v).setPassWanted true else behind L true v) = behind L true v :=
    ite_self _
  rw [State.settle, wanted, passLoop]
  dsimp only
  rw [if_pos ⟨rfl, released⟩, passed]
  split
  · exact passLoop_nothingDue _ (t.setPassWanted true) none_
  · exact passLoop_nothingDue _ t none_

/-! ### An offer that preempts (R89) -/

/-- An entry above all the others is the best. -/
theorem bestEntry_above {l : List QueueEntry} {w : QueueEntry} (above : ∀ x ∈ l, x.request.priority < w.request.priority) :
    bestEntry (l ++ [w]) = some w := by
  obtain ⟨x, best⟩ := Option.isSome_iff_exists.mp (show (bestEntry (l ++ [w])).isSome = true by rw [bestEntry_isSome]; simp)
  rw [best]
  rcases List.mem_append.mp (bestEntry_mem best) with old | new
  · have lower := bestEntry_priority best w (List.mem_append_right _ (List.mem_singleton.mpr rfl))
    exact absurd (above x old) (Nat.not_lt.mpr lower)
  · rw [List.mem_singleton.mp new]

theorem withoutQueued_new {l : List QueueEntry} {w : QueueEntry} {i : Fin 48} (slot : w.request.handle.slot = i)
    (others : ∀ x ∈ l, x.request.handle.slot ≠ i) : withoutQueued i (l ++ [w]) = l := by
  rw [withoutQueued, List.filter_append, List.filter_eq_self.mpr (by simpa using others)]
  simp [slot]

/-- The part with the next arrival counted. -/
def arrivalCounted (v : State) : State := { v with arbiter := { v.arbiter with arrivalCounter := v.arbiter.arrivalCounter + 1 } }

/-- A new entry taken out of the queue again: what is left of it is the count, and the record's state. -/
theorem enqueue_winnerOut {q : Request} (live : v.live q.handle = some r) (counts : v.arbiter.arrivalCounter ≠ 65535)
    (others : ∀ x ∈ v.arbiter.queue, x.request.handle.slot ≠ q.handle.slot) :
    (v.enqueue q).setQueue (withoutQueued q.handle.slot (v.enqueue q).arbiter.queue)
      = (arrivalCounted v).withRecord q.handle { r with state := .queued } := by
  have kept := withoutQueued_new (w := { request := q, arrival := v.arbiter.arrivalCounter }) rfl others
  rw [enqueue_below live counts]
  exact congrArg (fun l => ((arrivalCounted v).withRecord q.handle { r with state := .queued }).setQueue l) kept

theorem disposed_arrived {q : Request} {x : Record} {locked : Bool} (live : v.live q.handle = some r) (same : x.notices = r.notices)
    (apart : q.handle.slot ≠ g.handle.slot) (bottom : BottomApart v q.handle.slot) :
    disposed (beamLeft ((arrivalCounted v).withRecord q.handle x)) g rg locked
      = (disposed (beamLeft (arrivalCounted v)) g rg locked).withRecord q.handle x := by
  have live' : (beamLeft (arrivalCounted v)).live q.handle = some r := live
  exact disposed_withRecord (t := beamLeft (arrivalCounted v)) live' same apart bottom

theorem preemptionTest_new {q : Request} (granted : v.arbiter.grant = some g) (live : v.live q.handle = some r)
    (counts : v.arbiter.arrivalCounter ≠ 65535) (above : g.priority < q.priority)
    (below : ∀ x ∈ v.arbiter.queue, x.request.priority ≤ g.priority) :
    (v.enqueue q).preemptionTest = (v.enqueue q).preempt g { request := q, arrival := v.arbiter.arrivalCounter } := by
  have entered := enqueue_below live counts
  have granted' : (v.enqueue q).arbiter.grant = some g := by
    rw [entered]
    exact granted
  have best : bestEntry (v.enqueue q).arbiter.queue = some { request := q, arrival := v.arbiter.arrivalCounter } := by
    rw [entered]
    exact bestEntry_above fun x mem => Nat.lt_of_le_of_lt (below x mem) above
  rw [State.preemptionTest, granted', best]
  exact if_pos above

/-- A new entry above the grant and above all that waits takes the beam (R84, R87, R89 to R92). -/
theorem enqueue_preempts {q : Request} (granted : v.arbiter.grant = some g) (pursued : v.pursuit = some c) (target : c.target = g.handle)
    (liveG : v.live g.handle = some rg) (live : v.live q.handle = some r) (above : g.priority < q.priority)
    (below : ∀ x ∈ v.arbiter.queue, x.request.priority ≤ g.priority ∧ x.request.handle.slot ≠ q.handle.slot)
    (bottoms : ∀ x, v.arbiter.stack[3]? = some x → x.handle.slot ≠ g.handle.slot ∧ x.handle.slot ≠ q.handle.slot ∧ v.live x.handle ≠ none)
    (counts : v.arbiter.arrivalCounter < 65534) (apart : q.handle.slot ≠ g.handle.slot) (predicted : r.prediction q.aim v.now = some d)
    (sent : v.ports.driveOut = [] ∧ v.ports.rangeOut = []) :
    ∃ b, (v.enqueue q).arbitrate = behind v.link b (beamTaken (arrivalCounted v) g rg (decide (c.stage = .locked)) q r d) := by
  have counts' : v.arbiter.arrivalCounter ≠ 65535 := by omega
  have entered := enqueue_below live counts'
  have out := enqueue_winnerOut live counts' fun x mem => (below x mem).2
  have granted' : (v.enqueue q).arbiter.grant = some g := by rw [entered]; exact granted
  have pursued' : (v.enqueue q).pursuit = some c := by rw [entered]; exact pursued
  have liveG' : (v.enqueue q).live g.handle = some rg := by
    rw [entered]
    exact (live_withRecord_other v _ apart.symm).trans liveG
  have arrived : (v.enqueue q).arbiter.arrivalCounter ≠ 65535 := by
    rw [entered]
    show v.arbiter.arrivalCounter + 1 ≠ 65535
    omega
  have bottomG : BottomApart (v.enqueue q) g.handle.slot := by
    rw [entered]
    exact fun x full => (bottoms x full).1
  have disposal := disposed_arrived (rg := rg) (locked := decide (c.stage = .locked)) (x := { r with state := .queued }) live rfl apart
    fun x full => (bottoms x full).2.1
  have liveW : (disposed (beamLeft ((v.enqueue q).setQueue (withoutQueued q.handle.slot (v.enqueue q).arbiter.queue))) g rg
      (decide (c.stage = .locked))).live q.handle = some { r with state := .queued } := by
    rw [out, disposal]
    exact live_withRecord _ _ _
  obtain ⟨b, taken⟩ := preempt_taken (e := { request := q, arrival := v.arbiter.arrivalCounter }) (d := d) pursued' target liveG' arrived bottomG liveW
    (by rw [entered]; exact predicted)
  refine ⟨b, ?_⟩
  have slewed := slewOn_disposed (y := arrivalCounted v) (g := g) (rg := rg) (q := q) (r := { r with state := .queued }) (d := d)
    (locked := decide (c.stage = .locked)) sent fun x full => (bottoms x full).2.2
  rw [arbitrate_granted granted', preemptionTest_new granted live counts' above fun x mem => (below x mem).1, taken]
  dsimp only
  rw [out, disposal, slewOn_withRecord, slewed]
  rfl

theorem beamTaken_fields {locked : Bool} {q : Request} (bottom : BottomLives v) :
    (beamTaken v g rg locked q r d).scheduler = v.scheduler ∧ (beamTaken v g rg locked q r d).link = { v.link with sdo := [], sdoNext := 0 } := by
  obtain ⟨-, -, scheduler, link⟩ := disposed_fields (t := v) (g := g) (r := rg) (locked := locked)
  rw [disposed_eq_setAside bottom] at scheduler link
  exact ⟨scheduler, congrArg (fun l : StationLink => { l with sdo := [], sdoNext := 0 }) link⟩

end Sys2Proof.Machine
end


section
/-! The deadlines' obligation (R61, R67, R71, R108 to R111). -/

namespace Sys2Proof.Machine

variable {s : State} {g : Request} {c : Context} {r rg : Record} {d : Direction} {e : RevisitEntry} {before later : List RevisitEntry}

section
variable (split : s.scheduler.entries = before ++ e :: later) (others : ∀ x ∈ before ++ later, x.handle.slot ≠ e.handle.slot)

include split in
theorem dueSlots_marked_offered (none_ : s.dueSlots = []) : (markedAs s before e later .offered).dueSlots = [] := by
  have waits := dueSlots_eq_nil_iff.mp none_
  rw [split] at waits
  refine dueSlots_eq_nil_iff.mpr fun x mem => ?_
  rcases List.mem_append.mp mem with old | here
  · exact waits x (List.mem_append_left _ old)
  · rcases List.mem_cons.mp here with rfl | old
    · exact nofun
    · exact waits x (List.mem_append_right _ (List.mem_cons_of_mem _ old))

include others in
/-- The offer of an entry just marked, at a free beam. -/
theorem offerGranted_marked : offerGranted (markedAs s before e later .due) e.handle r d = beamGranted
    { s.withRecord e.handle { r with state := .active .slewing } with scheduler :=
      { s.scheduler with entries := before ++ { e with status := .offered } :: later } }
    (requestOf e.handle .revisit s.arbiter.priorities.revisit none) d :=
  congrArg (fun l => beamGranted { s.withRecord e.handle { r with state := .active .slewing } with scheduler := { s.scheduler with entries := l } }
    (requestOf e.handle .revisit s.arbiter.priorities.revisit none) d) (mark_entry (st := .offered) { e with status := .due } others)

end

section
variable (up : s.resetnLow = false) (calm : s.scheduler.passWanted = false) (split : s.scheduler.entries = before ++ e :: later)
  (scheduled : e.status = .scheduled) (timely : DeadlineReached s e.due) (others : ∀ x ∈ before ++ later, x.handle.slot ≠ e.handle.slot)
  (first : ∀ x ∈ before, x.status = .scheduled → ¬DeadlineReached s x.due)
include up calm split scheduled timely others first

theorem exec_dueTime_frozen (frozen : s.scheduler.frozen = true) : exec .dueTimeExpiry s = .next (markedAs s before e later .due) := by
  have frozen' : (behind s.quiet.link true (markedAs s before e later .due)).scheduler.frozen = true := frozen
  rw [exec_dueTime_marked split scheduled timely others first up, settle_frozen frozen']
  exact congrArg Host.Outcome.next (behind_marked calm)

theorem exec_dueTime_offers (released : s.scheduler.frozen = false) (running : s.arbiter.runMode = .running) (below : OffersStayBelow s)
    (counts : s.arbiter.arrivalCounter < 65500) (nodup : (s.scheduler.entries.map (·.handle.slot)).Nodup) :
    exec .dueTimeExpiry s = .next (offersMade (dueEntries (markedAs s before e later .due)) (markedAs s before e later .due)) := by
  have at_ : Passing (markedAs s before e later .due) [] (dueEntries (markedAs s before e later .due)) :=
    ⟨rfl, nodup_marked split nodup, nofun, running, below, fun _ => ⟨rfl, rfl⟩, Nat.lt_of_lt_of_le counts (by omega),
      fun _ => Nat.lt_of_lt_of_le counts (by omega)⟩
  have calm' : (markedAs s before e later .due).scheduler.passWanted = false := calm
  have passWanted := offersMade_passWanted (dueEntries (markedAs s before e later .due)) calm'
  have link := offersMade_link (dueEntries (markedAs s before e later .due)) (v := markedAs s before e later .due) rfl rfl
  rw [exec_dueTime_marked split scheduled timely others first up, settle_offers (v := markedAs s before e later .due) released at_]
  refine congrArg Host.Outcome.next ?_
  have same := behind_self passWanted
  rw [link] at same
  exact same

theorem exec_dueTime_preempts (serves : Pursuing s g c rg) (released : s.scheduler.frozen = false) (none_ : NothingDue s)
    (above : g.priority < s.arbiter.priorities.revisit)
    (below : ∀ x ∈ s.arbiter.queue, x.request.priority ≤ g.priority ∧ x.request.handle.slot ≠ e.handle.slot)
    (bottoms : ∀ x, s.arbiter.stack[3]? = some x → x.handle.slot ≠ g.handle.slot ∧ x.handle.slot ≠ e.handle.slot ∧ s.live x.handle ≠ none)
    (room : s.arbiter.queue.length < 12) (counts : s.arbiter.arrivalCounter < 65534) (apart : e.handle.slot ≠ g.handle.slot)
    (live : s.live e.handle = some r) (dormant : r.state = .dormant) (position : r.position = some d) :
    exec .dueTimeExpiry s = .next (beamTaken (arrivalCounted (markedAs s before e later .offered)) g rg (decide (c.stage = .locked))
      (requestOf e.handle .revisit s.arbiter.priorities.revisit none) r d) := by
  have liveG : s.live g.handle = some rg := by
    rw [← serves.target]
    exact serves.record
  obtain ⟨b, taken⟩ := enqueue_preempts (v := markedAs s before e later .offered) (q := requestOf e.handle .revisit s.arbiter.priorities.revisit none)
    serves.grant serves.context serves.target liveG live above below bottoms counts apart
    (prediction_of_standsAt ((position_eq_some r d).mp position) none _) ⟨rfl, rfl⟩
  have offered : (behind s.quiet.link false (markedAs s before e later .due)).setEntryStatus e.handle.slot .offered
      = markedAs s before e later .offered := by
    rw [behind_marked calm]
    exact entryOffered_marked others
  have answer := takeOffer_taken (s := behind s.quiet.link false (markedAs s before e later .due)) (h := e.handle) serves.running live dormant position room
  rw [offered] at answer
  obtain ⟨scheduler, link⟩ := beamTaken_fields (v := arrivalCounted (markedAs s before e later .offered)) (g := g) (rg := rg) (r := r) (d := d)
    (locked := decide (c.stage = .locked)) (q := requestOf e.handle .revisit s.arbiter.priorities.revisit none) fun x full => (bottoms x full).2.2
  have calm' : (beamTaken (arrivalCounted (markedAs s before e later .offered)) g rg (decide (c.stage = .locked))
      (requestOf e.handle .revisit s.arbiter.priorities.revisit none) r d).scheduler.passWanted = false :=
    (congrArg Scheduler.passWanted scheduler).trans calm
  have none' : (behind (markedAs s before e later .offered).link b (beamTaken (arrivalCounted (markedAs s before e later .offered)) g rg
      (decide (c.stage = .locked)) (requestOf e.handle .revisit s.arbiter.priorities.revisit none) r d)).dueSlots = [] := by
    rw [State.dueSlots]
    refine (congrArg (fun y : Scheduler => (y.entries.filter fun e => decide (e.status = .due)).map fun e => e.handle.slot) scheduler).trans ?_
    exact dueSlots_marked_offered split none_.2
  have passed := settle_one (n := s.arbiter.queue.length) (L := s.quiet.link) (dueEntries_marked split none_.2) (entryAt_marked others) released live dormant
    (answer.trans (congrArg (·, Answer.ok) taken)) none'
  have self := behind_self calm'
  rw [link] at self
  rw [exec_dueTime_marked split scheduled timely others first up, passed]
  exact congrArg Host.Outcome.next self

theorem exec_dueTime_granted (released : s.scheduler.frozen = false) (running : s.arbiter.runMode = .running) (free : s.arbiter.grant = none)
    (alone : NoOtherRequest s) (counts : s.arbiter.arrivalCounter < 65535) (live : s.live e.handle = some r) (dormant : r.state = .dormant)
    (position : r.position = some d) :
    exec .dueTimeExpiry s = .next (beamGranted
      { s.withRecord e.handle { r with state := .active .slewing } with scheduler :=
        { s.scheduler with entries := before ++ { e with status := .offered } :: later } }
      (requestOf e.handle .revisit s.arbiter.priorities.revisit none) d) := by
  obtain ⟨none_, queue, stack⟩ := alone
  obtain ⟨b, taken⟩ := takeOffer_granted (L := s.quiet.link) (b := false) (v := markedAs s before e later .due) (h := e.handle) running live dormant position
    free queue stack ⟨rfl, rfl⟩ (Nat.ne_of_lt counts)
  have offered := offerGranted_marked (s := s) (r := r) (d := d) others
  have none' : (behind s.quiet.link b (offerGranted (markedAs s before e later .due) e.handle r d)).dueSlots = [] := by
    rw [offered]
    exact dueSlots_marked_offered split none_.2
  have passed := settle_one (n := s.arbiter.queue.length) (L := s.quiet.link) (dueEntries_marked split none_.2) (entryAt_marked others) released live dormant
    taken none'
  rw [exec_dueTime_marked split scheduled timely others first up, passed, offered]
  refine congrArg Host.Outcome.next ?_
  rw [← calm]
  rfl

end

end Sys2Proof.Machine

open Sys2Proof Sys2Proof.Machine

/-- Settles O52: each deadline by its own test; a due time's pass by the number of offers it can take. -/
theorem deadlinesExpire : Obligations.DeadlinesExpire := by
  unfold Obligations.DeadlinesExpire
  intro s up calm
  refine ⟨fun untimely => ?_, fun untimely => ?_, fun untimely => ?_, fun untimely => ?_, fun g c r d serves timely => ⟨fun p set_ predicted => ?_,
    fun sr set_ same stage due => ?_, fun set_ => ?_⟩, fun before e later split scheduled timely others first => ?_⟩
  · refine exec_own_untimely exec_coast up calm fun expired => ?_
    obtain ⟨c, d, pursued, set_, come⟩ := coastExpired_iff.mp expired
    exact untimely c d pursued set_ come
  · refine exec_own_untimely exec_search up calm fun expired => ?_
    obtain ⟨c, sr, pursued, set_, come⟩ := searchExpired_iff.mp expired
    exact untimely c sr pursued set_ come
  · refine exec_own_untimely exec_fixWait up calm fun expired => ?_
    obtain ⟨c, d, pursued, set_, come⟩ := fixWaitExpired_iff.mp expired
    exact untimely c d pursued set_ come
  · have none_ : s.quiet.dueEntry = none := by
      rw [← Option.not_isSome_iff_eq_none, dueEntry_isSome_iff]
      exact fun ⟨e, mem, scheduled, come⟩ => untimely e mem scheduled come
    have taken : s.quiet.takeDueExpiry = sentNothing s := by
      rw [State.takeDueExpiry, none_]
      rfl
    exact exec_own exec_dueTime up calm taken rfl rfl
  · exact serves.exec_coast timely set_ predicted
  · intro ends lost
    have self : s.setContext (some c) = s := by
      rw [← serves.context]
      rfl
    subst same
    have given := serves.lostGivenOn (by rw [stage]; exact nofun) due (c' := c) exec_search (by rw [self]; exact serves) rfl rfl
      (serves.search_lost timely set_)
    dsimp only [lost]
    rw [lostAs_eq]
    exact given
  · exact serves.exec_fixWait timely set_
  · intro marked
    exact ⟨exec_dueTime_frozen up calm split scheduled timely others first, exec_dueTime_offers up calm split scheduled timely others first,
      fun g c rg r d serves released none_ above below bottoms room counts apart live dormant position =>
        exec_dueTime_preempts up calm split scheduled timely others first serves released none_ above below bottoms room counts apart live dormant position,
      fun r d released running free alone counts live dormant position =>
        exec_dueTime_granted up calm split scheduled timely others first released running free alone counts live dormant position⟩
end


section
/-! The removal of PENDANT-origin queue entries (R96), and WINDOWS (R19). -/

namespace Sys2Proof.Machine

variable {s t : State} {j : Fin 48} {claimed : Handle → Bool}

/-! ### Records made DORMANT one after another -/

theorem recordAt_toDormant (h : Handle) (o : EndOutcome) : (s.toDormant h o).recordAt j = (s.recordAt j).map fun r =>
    if s.handleOf j = h then { r with state := .dormant, outcome := o } else r := by
  obtain ⟨b, dormant⟩ := toDormant_eq (t := s) (h := h) o
  rw [dormant]
  exact recordAt_modified _

theorem foldl_toDormant_onlyRecords {α : Type} (handle : α → Handle) (o : EndOutcome) (l : List α) :
    ∀ s : State, OnlyRecords s (l.foldl (fun s x => s.toDormant (handle x) o) s) := by
  induction l with
  | nil => exact .refl
  | cons x rest ih => exact fun s => (toDormant_onlyRecords o).trans (ih _)

theorem recordAt_foldl_toDormant {α : Type} (handle : α → Handle) (o : EndOutcome) (l : List α) : ∀ s : State,
    (l.foldl (fun s x => s.toDormant (handle x) o) s).recordAt j
      = (s.recordAt j).map fun r => if s.handleOf j ∈ l.map handle then { r with state := .dormant, outcome := o } else r := by
  induction l with
  | nil => exact fun s => by simp
  | cons x rest ih =>
    intro s
    rw [List.foldl_cons, ih, handleOf_of_setup (toDormant_setup s _ _), recordAt_toDormant, Option.map_map]
    refine congrArg (fun f => Option.map f (s.recordAt j)) (funext fun r => ?_)
    by_cases first : s.handleOf j = handle x <;> by_cases later : s.handleOf j ∈ rest.map handle <;> simp [first, later]

/-! ### The queue entries a claim removes (R96) -/

/-- A claim names a queue entry of PENDANT origin. -/
def Claims (claimed : Handle → Bool) (e : QueueEntry) : Prop := e.request.origin = .pendant ∧ claimed e.request.handle = true

/-- The queue without the entries that a claim names. -/
def unclaimedQueue (claimed : Handle → Bool) (l : List QueueEntry) : List QueueEntry :=
  l.filter fun e => !(decide (e.request.origin = .pendant) && claimed e.request.handle)

theorem mem_unclaimedQueue {l : List QueueEntry} {e : QueueEntry} (mem : e ∈ l) : e ∈ unclaimedQueue claimed l ↔ ¬Claims claimed e := by
  simp [unclaimedQueue, Claims, mem, imp_iff_not_or]

theorem unclaimedQueue_sublist (l : List QueueEntry) : (unclaimedQueue claimed l).Sublist l := List.filter_sublist

theorem removePendantEntries_onlyRecords :
    OnlyRecords (s.setQueue (unclaimedQueue claimed s.arbiter.queue)) (s.removePendantEntries claimed) :=
  foldl_toDormant_onlyRecords (fun e : QueueEntry => e.request.handle) .released _ _

/-- The record of a claimed entry is DORMANT with outcome RELEASED; the others stand as they were. -/
theorem recordAt_removePendantEntries : (s.removePendantEntries claimed).recordAt j = (s.recordAt j).map fun r =>
    if s.handleOf j ∈ (s.arbiter.queue.filter fun e => decide (e.request.origin = .pendant) && claimed e.request.handle).map (·.request.handle)
    then { r with state := .dormant, outcome := .released } else r :=
  recordAt_foldl_toDormant (fun e : QueueEntry => e.request.handle) .released _ (s.setQueue _)

theorem mem_claimed_iff {k : Handle} {l : List QueueEntry} :
    k ∈ (l.filter fun e => decide (e.request.origin = .pendant) && claimed e.request.handle).map (·.request.handle)
      ↔ ∃ e ∈ l, Claims claimed e ∧ e.request.handle = k := by
  simp [Claims, and_assoc]

theorem recordAt_removed {r : Record} (held : s.recordAt j = some r) (named : ∃ e ∈ s.arbiter.queue, Claims claimed e ∧ e.request.handle = s.handleOf j) :
    (s.removePendantEntries claimed).recordAt j = some { r with state := .dormant, outcome := .released } := by
  rw [recordAt_removePendantEntries, held, Option.map_some, if_pos (mem_claimed_iff.mpr named)]

theorem recordAt_not_removed {r : Record} (held : s.recordAt j = some r)
    (unnamed : ¬∃ e ∈ s.arbiter.queue, Claims claimed e ∧ e.request.handle = s.handleOf j) : (s.removePendantEntries claimed).recordAt j = some r := by
  rw [recordAt_removePendantEntries, held, Option.map_some, if_neg fun mem => unnamed (mem_claimed_iff.mp mem)]

/-! ### WINDOWS -/

variable {x sb sl pb pl : Byte}

theorem exec_windows : exec (.windows x sb sl pb pl) s = s.station (.windows x sb sl pb pl) (settled (takeWindows x sb sl pb pl)) := rfl

/-- What takeWindows answers for a selector and its windows. -/
def windowsAnswer (s : State) (y : WindowSelector) (st pd : AllocWindow) : State × Response :=
  if (selectsStation y = true ∧ st.inRange = false) ∨ (selectsPendant y = true ∧ pd.inRange = false) then (s, noPayload .range)
  else if st = s.table.stationWindow ∧ pd = s.table.pendantWindow then (s, noPayload .already)
  else (s.setWindows st pd, noPayload .ok)

theorem takeWindows_none (unknown : selectorOf x = none) : takeWindows x sb sl pb pl s = (s, noPayload .range) := by
  rw [takeWindows, unknown]
  rfl

theorem takeWindows_some {y : WindowSelector} (named : selectorOf x = some y) :
    takeWindows x sb sl pb pl s = windowsAnswer s y (if selectsStation y then windowOf sb sl else s.table.stationWindow)
      (if selectsPendant y then windowOf pb pl else s.table.pendantWindow) := by
  rw [takeWindows, named]
  rfl

theorem selectorOf_zero : selectorOf 0 = some .station := rfl
theorem selectorOf_one : selectorOf 1 = some .pendant := rfl
theorem selectorOf_two : selectorOf 2 = some .both := rfl

theorem selectorOf_none (above : 3 ≤ x.toNat) : selectorOf x = none := by
  have other (n : Byte) (small : n.toNat < 3) : x ≠ n := fun same => by
    rw [same] at above
    omega
  rw [selectorOf, if_neg (other 0#8 (by decide)), if_neg (other 1#8 (by decide)), if_neg (other 2#8 (by decide))]

/-- A settled command that leaves no trigger and no shorter queue. -/
theorem station_keeps {i : Instr} {take : State → State × Response} {a : Answer} (up : s.resetnLow = false) (calm : t.scheduler.passWanted = false)
    (link : t.link = s.link) (longer : s.arbiter.queue.length ≤ t.arbiter.queue.length) (taken : take (s.atRise i) = (t.atRise i, noPayload a)) :
    s.station i (settled take) = .next (answeredBy s i (noPayload a) t) :=
  station_leaves up (settled_kept taken calm longer) (respond_atRise_of_link link)

theorem windowsAnswer_range {y : WindowSelector} {st pd : AllocWindow}
    (outside : (selectsStation y = true ∧ st.inRange = false) ∨ (selectsPendant y = true ∧ pd.inRange = false)) :
    windowsAnswer s y st pd = (s, noPayload .range) := if_pos outside

theorem inRange_eq_false {w : AllocWindow} (illegal : ¬w.Fits) : w.inRange = false := by
  rw [← Bool.not_eq_true, windowInRange_iff]
  exact illegal

theorem windowsAnswer_inRange {y : WindowSelector} {st pd : AllocWindow} (station : selectsStation y = true → st.Fits)
    (pendant : selectsPendant y = true → pd.Fits) : windowsAnswer s y st pd =
      if st = s.table.stationWindow ∧ pd = s.table.pendantWindow then (s, noPayload .already) else (s.setWindows st pd, noPayload .ok) := by
  refine if_neg fun outside => ?_
  rcases outside with ⟨selected, outside⟩ | ⟨selected, outside⟩
  · exact absurd ((windowInRange_iff st).mpr (station selected)) (by simp [outside])
  · exact absurd ((windowInRange_iff pd).mpr (pendant selected)) (by simp [outside])

/-- The part with another station window. -/
def stationWindowed (s : State) (w : AllocWindow) : State := { s with table := { s.table with stationWindow := w } }

theorem setWindows_station {st pd : AllocWindow} (same : pd = s.table.pendantWindow) : s.setWindows st pd = stationWindowed s st := if_pos same

theorem setWindows_moved {st pd : AllocWindow} (other : pd ≠ s.table.pendantWindow) :
    s.setWindows st pd = (stationWindowed s st).movePendantWindow pd := if_neg other

/-- A WINDOWS that writes the station window at most. -/
theorem windows_station {i : Instr} {take : State → State × Response} {y : WindowSelector} {st pd : AllocWindow} (up : s.resetnLow = false)
    (calm : s.scheduler.passWanted = false) (taken : take (s.atRise i) = windowsAnswer (s.atRise i) y st pd) (station : selectsStation y = true → st.Fits)
    (pendant : selectsPendant y = true → pd.Fits) (same : pd = s.table.pendantWindow) :
    s.station i (settled take) = .next (if st = s.table.stationWindow then answeredBy s i (noPayload .already) s
      else answeredBy s i (noPayload .ok) (stationWindowed s st)) := by
  rw [windowsAnswer_inRange station pendant] at taken
  by_cases kept : st = s.table.stationWindow
  · rw [if_pos kept]
    rw [if_pos ⟨kept, same⟩] at taken
    exact station_keeps up calm rfl le_rfl taken
  · rw [if_neg kept]
    rw [if_neg fun both => kept both.1, setWindows_station (s := s.atRise i) same] at taken
    exact station_keeps (t := stationWindowed s st) up calm rfl le_rfl taken

/-! ### A new pendant window -/

/-- The records outside a new pendant window passed on, and the window written. -/
def windowMoved (s : State) (w : AllocWindow) : State := (s.transferOutside w).setPendantWindow w

/-- What the claim of a new window names: the slots whose PENDANT-owned records it leaves outside. -/
def outsideOf (s : State) (w : AllocWindow) (h : Handle) : Bool := s.leftOutside w h.slot

theorem movePendantWindow_moved (w : AllocWindow) :
    s.movePendantWindow w = ((windowMoved s w).removePendantEntries (outsideOf s w)).forgetReported := by
  rw [movePendantWindow_eq, windowMoved]
  rfl

theorem recordAt_windowMoved (w : AllocWindow) :
    (windowMoved s w).recordAt j = (s.recordAt j).map fun r => { r with owner := if w.contains j then r.owner else .station } := by
  rw [windowMoved, recordAt_setPendantWindow, recordAt_transferOutside]

theorem generation_windowMoved (w : AllocWindow) : ((windowMoved s w).slotAt j).generation = (s.slotAt j).generation := by
  rw [windowMoved, slotAt_setPendantWindow, generation_transferOutside]

theorem windowMoved_fields (w : AllocWindow) :
    (windowMoved s w).table.pendantWindow = w ∧ (windowMoved s w).table.stationWindow = s.table.stationWindow ∧ (windowMoved s w).pendant = s.pendant
      ∧ (windowMoved s w).classes = s.classes ∧ (windowMoved s w).time = s.time ∧ (windowMoved s w).sweep = s.sweep
      ∧ (windowMoved s w).notices = s.notices ∧ (windowMoved s w).arbiter = s.arbiter ∧ (windowMoved s w).pursuit = s.pursuit
      ∧ (windowMoved s w).scheduler = s.scheduler := by
  simp [windowMoved]

theorem leftOutside_iff (w : AllocWindow) : s.leftOutside w j = true ↔ ∃ r, s.recordAt j = some r ∧ r.owner = .pendant ∧ w.contains j = false := by
  rw [State.leftOutside]
  cases s.recordAt j with
  | none => simp
  | some r => simp

theorem movePendantWindow_rest (w : AllocWindow) : SameSetup (windowMoved s w) ((windowMoved s w).removePendantEntries (outsideOf s w)) :=
  removePendantEntries_setup _ _

/-- A WINDOWS that moves the pendant window. -/
theorem windows_moves {i : Instr} {take : State → State × Response} {y : WindowSelector} {st pd : AllocWindow} (up : s.resetnLow = false)
    (taken : take (s.atRise i) = windowsAnswer (s.atRise i) y st pd) (station : selectsStation y = true → st.Fits)
    (pendant : selectsPendant y = true → pd.Fits) (other : pd ≠ s.table.pendantWindow) :
    s.station i (settled take) = .next ((((stationWindowed (s.atRise i) st).movePendantWindow pd).settle s.arbiter.queue.length).respond (noPayload .ok)) := by
  rw [windowsAnswer_inRange station pendant, if_neg fun both => other both.2, setWindows_moved (s := s.atRise i) other] at taken
  rw [station_high s _ _ up, settled, taken]
  rfl

/-- What a moved pendant window leaves, the passes after it too. -/
theorem windowMoved_settled (w : AllocWindow) (n : Nat) :
    let t := (s.movePendantWindow w).settle n
    t.table.pendantWindow = w ∧ t.table.stationWindow = s.table.stationWindow ∧ t.pendant = { s.pendant with reported := Vector.replicate 48 none }
      ∧ (∀ j, (t.slotAt j).generation = (s.slotAt j).generation
          ∧ (t.recordAt j).map Record.setup = (s.recordAt j).map fun r => { r.setup with owner := if w.contains j then r.owner else .station })
      ∧ t.classes = s.classes ∧ t.time = s.time ∧ t.sweep = s.sweep ∧ t.notices.master = s.notices.master
      ∧ t.notices.recordMask = s.notices.recordMask ∧ t.notices.deviceMask = s.notices.deviceMask := by
  intro t
  have rest := movePendantWindow_rest (s := s) w
  have passes : SameSetup ((windowMoved s w).removePendantEntries (outsideOf s w)).forgetReported t := by
    rw [← movePendantWindow_moved]
    exact settle_setup _ n
  obtain ⟨pendantWindow, stationWindow, pendant, classes, time, sweep, notices, -⟩ := windowMoved_fields (s := s) w
  have reported : t.pendant = { s.pendant with reported := Vector.replicate 48 none } := by
    rw [passes.pendant, State.forgetReported, rest.pendant, pendant]
  have setup (j : Fin 48) : (t.recordAt j).map Record.setup = (s.recordAt j).map fun r =>
      { r.setup with owner := if w.contains j then r.owner else .station } := by
    refine ((passes.records j).2.trans (rest.records j).2).trans ?_
    rw [recordAt_windowMoved, Option.map_map]
    rfl
  refine ⟨(passes.pendantWindow.trans rest.pendantWindow).trans pendantWindow, (passes.stationWindow.trans rest.stationWindow).trans stationWindow,
    reported, fun j => ⟨((passes.records j).1.trans (rest.records j).1).trans (generation_windowMoved w), setup j⟩,
    (passes.classes.trans rest.classes).trans classes, (passes.time.trans rest.time).trans time, (passes.sweep.trans rest.sweep).trans sweep,
    (passes.master.trans rest.master).trans (congrArg NoticeUnit.master notices),
    (passes.recordMask.trans rest.recordMask).trans (congrArg NoticeUnit.recordMask notices),
    (passes.deviceMask.trans rest.deviceMask).trans (congrArg NoticeUnit.deviceMask notices)⟩

/-- Where no revisit is DUE, a moved pendant window with its claim leaves the rest of the part. -/
theorem windowMoved_quietly (w : AllocWindow) (n : Nat) (none_ : NothingDue s) :
    let t := (s.movePendantWindow w).settle n
    t.pursuit = s.pursuit ∧ t.scheduler = s.scheduler ∧ t.notices = s.notices
      ∧ t.arbiter = { s.arbiter with queue := unclaimedQueue (outsideOf s w) s.arbiter.queue }
      ∧ ∀ j, t.recordAt j = ((windowMoved s w).removePendantEntries (outsideOf s w)).recordAt j := by
  intro t
  obtain ⟨-, -, -, -, -, -, notices, arbiter, pursuit, scheduler⟩ := windowMoved_fields (s := s) w
  obtain ⟨T, b, only⟩ := removePendantEntries_onlyRecords (s := windowMoved s w) (claimed := outsideOf s w)
  have moved := movePendantWindow_moved (s := s) w
  dsimp only [t]
  rw [moved]
  generalize windowMoved s w = W at notices arbiter pursuit scheduler only
  generalize W.removePendantEntries (outsideOf s w) = R at only
  have entries : R.scheduler.entries = s.scheduler.entries := by
    rw [only, ← scheduler]
    rfl
  have due : R.forgetReported.dueSlots = [] := by
    rw [State.dueSlots, show R.forgetReported.scheduler.entries = s.scheduler.entries from entries]
    exact none_.2
  have result : R.forgetReported.settle n = R.forgetReported.setPassWanted false := settle_nothingDue _ due
  have calm : ({ W.scheduler with passWanted := false } : Scheduler) = s.scheduler := by rw [scheduler, ← none_.1]
  rw [result]
  refine ⟨?_, ?_, ?_, ?_, fun j => rfl⟩
  · refine Eq.trans ?_ pursuit
    rw [only]
    rfl
  · refine Eq.trans ?_ calm
    rw [only]
    rfl
  · refine Eq.trans ?_ notices
    rw [only]
    rfl
  · rw [← arbiter]
    rw [only]
    rfl

/-- The records that a moved pendant window leaves. -/
theorem recordAt_windowMoved_claimed {w : AllocWindow} {r : Record} (held : s.recordAt j = some r)
    (named : ∃ e ∈ s.arbiter.queue, Claims (outsideOf s w) e ∧ e.request.handle = s.handleOf j) :
    ((windowMoved s w).removePendantEntries (outsideOf s w)).recordAt j = some { r with owner := .station, state := .dormant, outcome := .released } := by
  obtain ⟨e, mem, claims, same⟩ := named
  have handle : (windowMoved s w).handleOf j = s.handleOf j := by rw [State.handleOf, State.handleOf, generation_windowMoved]
  have outside : w.contains j = false := by
    have left : s.leftOutside w e.request.handle.slot = true := claims.2
    rw [same] at left
    obtain ⟨-, -, -, outside⟩ := (leftOutside_iff w).mp left
    exact outside
  have held' : (windowMoved s w).recordAt j = some { r with owner := .station } := by
    rw [recordAt_windowMoved, held, Option.map_some, outside]
    rfl
  exact recordAt_removed held' ⟨e, mem, claims, same.trans handle.symm⟩

theorem recordAt_windowMoved_unclaimed {w : AllocWindow} {r : Record} (held : s.recordAt j = some r)
    (unnamed : ¬∃ e ∈ s.arbiter.queue, Claims (outsideOf s w) e ∧ e.request.handle = s.handleOf j) :
    ((windowMoved s w).removePendantEntries (outsideOf s w)).recordAt j = some { r with owner := if w.contains j then r.owner else .station } := by
  have handle : (windowMoved s w).handleOf j = s.handleOf j := by rw [State.handleOf, State.handleOf, generation_windowMoved]
  have held' : (windowMoved s w).recordAt j = some { r with owner := if w.contains j then r.owner else .station } := by
    rw [recordAt_windowMoved, held, Option.map_some]
  refine recordAt_not_removed held' ?_
  rw [handle]
  exact unnamed

end Sys2Proof.Machine

open Sys2Proof Sys2Proof.Machine

/-- Settles O21: the selector and the ranges; a new pendant window with what it passes on and removes. -/
theorem windowsChange : Obligations.WindowsChange := by
  unfold Obligations.WindowsChange
  intro s x sb sl pb pl up calm i st pd legal written
  refine ⟨fun outside => ?_, fun zero station => ?_, fun one pendant same => ?_, fun two station pendant same => ?_,
    fun selects pendant station other => ?_⟩
  · rw [exec_windows]
    refine station_keeps (t := s) up calm rfl le_rfl ?_
    rcases outside with above | ⟨rfl | rfl, illegal⟩ | ⟨rfl | rfl, illegal⟩
    · exact takeWindows_none (selectorOf_none above)
    · exact (takeWindows_some selectorOf_zero).trans (windowsAnswer_range (.inl ⟨rfl, inRange_eq_false illegal⟩))
    · exact (takeWindows_some selectorOf_two).trans (windowsAnswer_range (.inl ⟨rfl, inRange_eq_false illegal⟩))
    · exact (takeWindows_some selectorOf_one).trans (windowsAnswer_range (.inr ⟨rfl, inRange_eq_false illegal⟩))
    · exact (takeWindows_some selectorOf_two).trans (windowsAnswer_range (.inr ⟨rfl, inRange_eq_false illegal⟩))
  · subst zero
    exact windows_station up calm (takeWindows_some selectorOf_zero) (fun _ => station) nofun rfl
  · subst one
    have kept := windows_station (i := i) up calm (takeWindows_some (sb := sb) (sl := sl) selectorOf_one) nofun (fun _ => pendant) same
    exact kept.trans (congrArg Host.Outcome.next (if_pos rfl))
  · subst two
    exact windows_station up calm (takeWindows_some selectorOf_two) (fun _ => station) (fun _ => pendant) same
  · have result : exec i s = .next ((((stationWindowed (s.atRise i) (if x = 2 then st else s.table.stationWindow)).movePendantWindow pd).settle
        s.arbiter.queue.length).respond (noPayload .ok)) := by
      rcases selects with rfl | rfl
      · exact windows_moves up (takeWindows_some (sb := sb) (sl := sl) selectorOf_one) nofun (fun _ => pendant) other
      · exact windows_moves up (takeWindows_some selectorOf_two) (fun _ => station rfl) (fun _ => pendant) other
    obtain ⟨pendantWindow, stationWindow, link, records, classes, time, sweep, master, recordMask, deviceMask⟩ :=
      windowMoved_settled (s := stationWindowed (s.atRise i) (if x = 2 then st else s.table.stationWindow)) pd s.arbiter.queue.length
    refine ⟨_, result, ⟨rfl, rfl⟩, pendantWindow, stationWindow, link, records, classes, time, sweep, master, recordMask, deviceMask, fun none_ => ?_⟩
    obtain ⟨pursuit, scheduler, notices, arbiter, record⟩ :=
      windowMoved_quietly (s := stationWindowed (s.atRise i) (if x = 2 then st else s.table.stationWindow)) pd s.arbiter.queue.length none_
    intro left gone
    have outside (j : Fin 48) : (stationWindowed (s.atRise i) (if x = 2 then st else s.table.stationWindow)).leftOutside pd j = true ↔ left j := by
      rw [leftOutside_iff]
      refine exists_congr fun r => and_congr Iff.rfl (and_congr Iff.rfl ?_)
      rw [← Bool.not_eq_true, contains_iff]
    have claims (e : QueueEntry) :
        Claims (outsideOf (stationWindowed (s.atRise i) (if x = 2 then st else s.table.stationWindow)) pd) e ↔ gone e := and_congr Iff.rfl (outside _)
    generalize hw : stationWindowed (s.atRise i) (if x = 2 then st else s.table.stationWindow) = w at *
    have queue : w.arbiter = s.arbiter := by rw [← hw]; rfl
    have handle (j : Fin 48) : w.handleOf j = s.handleOf j := by rw [← hw]; rfl
    have held (j : Fin 48) : w.recordAt j = s.recordAt j := by rw [← hw]; rfl
    have named (j : Fin 48) : (∃ e ∈ w.arbiter.queue, Claims (outsideOf w pd) e ∧ e.request.handle = w.handleOf j)
        ↔ ∃ e ∈ s.arbiter.queue, gone e ∧ e.request.handle = s.handleOf j := by
      rw [queue, handle]
      exact exists_congr fun e => and_congr Iff.rfl (and_congr (claims e) Iff.rfl)
    rw [queue] at arbiter
    have left_ := congrArg Arbiter.queue arbiter
    refine ⟨pursuit.trans (by rw [← hw]; rfl), scheduler.trans (by rw [← hw]; rfl), notices.trans (by rw [← hw]; rfl), ?_, ?_, fun e mem => ?_,
      fun j r here => ⟨fun gone_ => ?_, fun stays => ?_⟩⟩
    · exact congrArg (fun a : Arbiter => { a with queue := s.arbiter.queue }) arbiter
    · exact left_ ▸ unclaimedQueue_sublist _
    · refine (iff_of_eq (congrArg (e ∈ ·) left_)).trans ?_
      exact (mem_unclaimedQueue mem).trans (not_congr (claims e))
    · exact (record j).trans (recordAt_windowMoved_claimed ((held j).trans here) ((named j).mpr gone_))
    · exact (record j).trans (recordAt_windowMoved_unclaimed ((held j).trans here) fun some_ => stays ((named j).mp some_))
end


section
/-! The pendant link's line events (R96, R193, R195, R202). -/

namespace Sys2Proof.Machine

variable {s : State} {d : Time}

/-- An event of the pendant link that makes no request, as a whole. -/
theorem exec_linkEvent {i : Instr} {f : State → State} {t : State} (runs : exec i s = s.whenUp 0 f) (up : s.resetnLow = false)
    (left : f s.quiet = t) : exec i s = .next t := by
  rw [runs, whenUp_high _ 0 f up, left]

theorem exec_frameError (e : PendantError) : exec (.pendantFrameError e) s = s.whenUp 0 (·.takeFrameError e) := rfl

theorem exec_idleLine : exec .lineReturnToIdle s = s.whenUp 0 fun s => s.setPendant { s.pendant with inBreak := false } := rfl

theorem exec_statusSent : exec .statusFrameSent s = s.whenUp 0 fun s => s.setPendant s.pendant.sent := rfl

/-! ### Frame errors (R193) -/

/-- The link after a frame error: the receiver hunts, and a break is remembered until the line returns to idle. -/
def huntingAfter (s : State) (e : PendantError) : State :=
  s.setPendant { s.pendant with receiver := .hunting, inBreak := s.pendant.inBreak || decide (e = .lineBreak) }

theorem errorCounts_iff {e : PendantError} {b : Bool} : errorCounts e b = true ↔ ¬(e = .lineBreak ∧ b = true) := by
  simp [errorCounts, imp_iff_not_or]

theorem takeFrameError_uncounted {e : PendantError} (again : e = .lineBreak ∧ s.pendant.inBreak = true) :
    s.takeFrameError e = huntingAfter s e :=
  if_neg fun counts => errorCounts_iff.mp counts again

theorem takeFrameError_counted {e : PendantError} (first : ¬(e = .lineBreak ∧ s.pendant.inBreak = true)) :
    s.takeFrameError e = (huntingAfter s e).countPendantError :=
  if_pos (errorCounts_iff.mpr first)

/-! ### Frames sent (R202) -/

theorem sent_idle {p : PendantLink} (free : p.sending = none) : p.sent = p := by
  rw [PendantLink.sent, free]

theorem sent_busy {p : PendantLink} {f : StatusFrame} (busy : p.sending = some f) :
    p.sent = { p with sending := p.waiting.head?, waiting := p.waiting.tail } := by
  rw [PendantLink.sent, busy]
  cases waits : p.waiting with
  | nil =>
    obtain ⟨⟩ := p
    obtain rfl : _ = [] := waits
    rfl
  | cons f rest => rfl

/-! ### The silence deadline (R96, R195) -/

theorem exec_silence : exec .pendantSilenceExpiry s = s.ownEvent fun s => if s.silenceExpired then s.takeSilence else s := rfl

/-- The pendant absent, with the PENDANT notice. -/
def absentNoted (s : State) : State := (s.setPendant { s.pendant with present := false, silenceDeadline := none }).setDeviceNotice .pendant

/-- Every claim is made. -/
def everyClaim : Handle → Bool := fun _ => true

theorem takeSilence_eq : s.takeSilence = (absentNoted s).removePendantEntries everyClaim := rfl

theorem claims_everyClaim_iff {e : QueueEntry} : Claims everyClaim e ↔ e.request.origin = .pendant := by simp [Claims, everyClaim]

theorem unclaimedQueue_everyClaim (l : List QueueEntry) : unclaimedQueue everyClaim l = l.filter fun x => decide (x.request.origin ≠ .pendant) := by
  simp [unclaimedQueue, everyClaim]

/-- Where no revisit is DUE, the end of the pendant's presence is followed by no pass that changes anything. -/
theorem takeSilence_settles (n : Nat) (none_ : NothingDue s) : s.takeSilence.settle n = s.takeSilence.setPassWanted false := by
  refine settle_nothingDue _ ?_
  obtain ⟨T, b, only⟩ := removePendantEntries_onlyRecords (s := absentNoted s) (claimed := everyClaim)
  rw [takeSilence_eq, only]
  exact none_.2

end Sys2Proof.Machine

open Sys2Proof Sys2Proof.Machine

/-- Settles O53: each event on the pendant's line, and the end of the pendant's presence with the entries it takes from the queue. -/
theorem pendantLineEvents : Obligations.PendantLineEvents := by
  unfold Obligations.PendantLineEvents
  intro s e up calm hunting noted
  refine ⟨fun brk again => ?_, fun first => ?_, ?_, fun free => ?_, fun f busy => ?_, fun untimely => ?_,
    fun d set_ timely none_ => ?_⟩
  · exact exec_linkEvent (exec_frameError e) up (takeFrameError_uncounted (s := s.quiet) ⟨brk, again⟩)
  · refine exec_linkEvent (exec_frameError e) up ((takeFrameError_counted (s := s.quiet) first).trans ?_)
    rw [State.countPendantError]
    by_cases zero : s.notices.pendantErrors = 0
    · rw [if_pos (show (huntingAfter s.quiet e).notices.pendantErrors = 0 from zero)]
      dsimp only [noted]
      rw [if_pos zero]
      rfl
    · rw [if_neg (show ¬(huntingAfter s.quiet e).notices.pendantErrors = 0 from zero)]
      dsimp only [noted]
      rw [if_neg zero]
      rfl
  · exact exec_linkEvent exec_idleLine up rfl
  · exact exec_linkEvent exec_statusSent up (congrArg s.quiet.setPendant (sent_idle free))
  · exact exec_linkEvent exec_statusSent up (congrArg s.quiet.setPendant (sent_busy busy))
  · refine exec_own_untimely exec_silence up calm fun expired => ?_
    obtain ⟨d, set_, timely⟩ := silenceExpired_iff.mp expired
    exact untimely d set_ timely
  · intro gone
    have expired : s.quiet.silenceExpired = true := silenceExpired_iff.mpr ⟨d, set_, timely⟩
    have result : exec .pendantSilenceExpiry s = .next (s.quiet.takeSilence.setPassWanted false) := by
      rw [exec_silence, ownEvent_high s _ up, if_pos expired, takeSilence_settles (s := s.quiet) _ none_]
    have named (j : Fin 48) : (∃ x ∈ (absentNoted s.quiet).arbiter.queue, Claims everyClaim x ∧ x.request.handle = (absentNoted s.quiet).handleOf j)
        ↔ gone j := exists_congr fun x => and_congr Iff.rfl (and_congr claims_everyClaim_iff Iff.rfl)
    refine ⟨_, result, ?_⟩
    obtain ⟨T, b, only⟩ := removePendantEntries_onlyRecords (s := absentNoted s.quiet) (claimed := everyClaim)
    have rest := removePendantEntries_setup (absentNoted s.quiet) everyClaim
    have removed (j : Fin 48) (r : Record) (held : s.recordAt j = some r) :=
      recordAt_removed (s := absentNoted s.quiet) (claimed := everyClaim) (j := j) (r := r) held
    have notRemoved (j : Fin 48) (r : Record) (held : s.recordAt j = some r) :=
      recordAt_not_removed (s := absentNoted s.quiet) (claimed := everyClaim) (j := j) (r := r) held
    have vacant (j : Fin 48) (empty : s.recordAt j = none) : ((absentNoted s.quiet).removePendantEntries everyClaim).recordAt j = none := by
      rw [recordAt_removePendantEntries, show (absentNoted s.quiet).recordAt j = none from empty]
      rfl
    rw [takeSilence_eq]
    generalize (absentNoted s.quiet).removePendantEntries everyClaim = R at *
    refine ⟨rest.pendant, ?_, ?_, fun j => (rest.records j).1, vacant, fun j r held lost => removed j r held ((named j).mpr lost),
      fun j r held stays => notRemoved j r held fun lost => stays ((named j).mp lost), ?_, ?_, ?_, rest.classes, rest.time, rest.sweep,
      rest.stationWindow, rest.pendantWindow⟩
    · rw [only]; rfl
    · rw [only, unclaimedQueue_everyClaim]; rfl
    · rw [only]; rfl
    · rw [only, ← calm]; rfl
    · rw [only]; rfl
end


section
/-! Requests on the pendant link (R194, R196, R202): a good frame, the checks of an offset, and the status frame. -/

namespace Sys2Proof.Machine

variable {s t : State} {o : Byte} {i : Fin 48} {r : Record} {a : Answer}

/-! ### A good frame (R194) -/

/-- The part as a request finds it: the frame heard, and nothing sent yet. -/
def atRequest (s : State) : State := sentNothing (heard s)

theorem goodFrame_quiet : s.quiet.goodFrame = atRequest s := by
  rw [State.goodFrame, atRequest, heard]
  cases present : s.pendant.present with
  | true =>
    rw [if_pos (show s.quiet.pendant.present = true from present)]
    rfl
  | false =>
    rw [if_neg (show ¬s.quiet.pendant.present = true by rw [show s.quiet.pendant.present = s.pendant.present from rfl, present]; decide)]
    rfl

theorem atRequest_fields :
    (atRequest s).resetnLow = s.resetnLow ∧ (atRequest s).table = s.table ∧ (atRequest s).classes = s.classes ∧ (atRequest s).pursuit = s.pursuit
      ∧ (atRequest s).arbiter = s.arbiter ∧ (atRequest s).scheduler = s.scheduler ∧ (atRequest s).time = s.time
      ∧ (atRequest s).pendant.reported = s.pendant.reported ∧ (atRequest s).pendant.markCounter = s.pendant.markCounter := by
  unfold atRequest heard
  cases s.pendant.present <;> exact ⟨rfl, rfl, rfl, rfl, rfl, rfl, rfl, rfl, rfl⟩

theorem recordAt_atRequest : (atRequest s).recordAt i = s.recordAt i := by
  rw [State.recordAt, State.recordAt, State.slotAt, State.slotAt, atRequest_fields.2.1]

theorem slotAt_atRequest : (atRequest s).slotAt i = s.slotAt i := by
  rw [State.slotAt, State.slotAt, atRequest_fields.2.1]

theorem handleOf_atRequest : (atRequest s).handleOf i = s.handleOf i := by
  rw [State.handleOf, State.handleOf, slotAt_atRequest]

/-! ### A request's event (R194, R202) -/

/-- A request refused. -/
def refusedReply (s : State) (o : Byte) (a : Answer) : Reply := { after := s, answer := a, offset := some o, mark := none }

theorem pendantEvent_long {kind : Byte} {fits : Bool} {take : State → Reply} (up : s.resetnLow = false) (misfit : fits = false) :
    s.pendantEvent kind fits take = .next (reportedBy (atRequest s) 0 .range none none) := by
  rw [State.pendantEvent, whenUp_high _ _ _ up, misfit, goodFrame_quiet]
  rfl

/-- A request that leaves the part t after its passes. -/
theorem pendantEvent_leaves {kind : Byte} {take : State → Reply} {w : Reply} (up : s.resetnLow = false)
    (taken : take (atRequest s) = w) (left : w.after.settle s.arbiter.queue.length = t) :
    s.pendantEvent kind true take = .next (reportedBy t kind w.answer w.offset w.mark) := by
  obtain ⟨-, -, -, -, arbiter, -⟩ := atRequest_fields (s := s)
  rw [State.pendantEvent, whenUp_high _ _ _ up, goodFrame_quiet]
  simp only [if_true]
  rw [taken, arbiter, left]
  rfl

/-- A request that leaves no trigger of a pass and no shorter queue. -/
theorem pendantEvent_keeps {kind : Byte} {take : State → Reply} {w : Reply} (up : s.resetnLow = false)
    (taken : take (atRequest s) = w) (calm : w.after.scheduler.passWanted = false) (longer : s.arbiter.queue.length ≤ w.after.arbiter.queue.length) :
    s.pendantEvent kind true take = .next (reportedBy w.after kind w.answer w.offset w.mark) :=
  pendantEvent_leaves up taken (settle_calm _ calm longer)

/-- A request that changes nothing. -/
theorem pendantEvent_unchanged {kind : Byte} {take : State → Reply} {offset mark : Option Byte} (up : s.resetnLow = false)
    (calm : s.scheduler.passWanted = false) (taken : take (atRequest s) = { after := atRequest s, answer := a, offset := offset, mark := mark }) :
    s.pendantEvent kind true take = .next (reportedBy (atRequest s) kind a offset mark) := by
  obtain ⟨-, -, -, -, arbiter, scheduler, -⟩ := atRequest_fields (s := s)
  refine pendantEvent_keeps up taken ?_ (le_of_eq ?_)
  · exact (congrArg Scheduler.passWanted scheduler).trans calm
  · exact (congrArg (fun x : Arbiter => x.queue.length) arbiter).symm

/-! ### The eight requests -/

variable {p : List Byte}

theorem exec_poll : exec (.poll p) s = s.pendantEvent 1 (oneByte p) fun s => s.onOffset (offsetOf p) false fun _ _ => (s, .ok) := rfl

theorem exec_claimNew : exec (.claimNew p) s = s.pendantEvent 2 p.isEmpty takeClaimNew := rfl

theorem exec_find : exec (.find p) s = s.pendantEvent 3 (oneByte p) fun s => s.onOffset (offsetOf p) true s.findRecord := rfl

theorem exec_letGo : exec (.letGo p) s = s.pendantEvent 4 (oneByte p) fun s => s.onOffset (offsetOf p) true s.releaseRecord := rfl

theorem exec_holdOn : exec (.holdOn p) s = s.pendantEvent 5 (oneByte p) fun s => s.onOffset (offsetOf p) true fun h r => s.setHoldOf h r true := rfl

theorem exec_holdOff : exec (.holdOff p) s = s.pendantEvent 6 (oneByte p) fun s => s.onOffset (offsetOf p) true fun h r => s.setHoldOf h r false := rfl

theorem exec_mark : exec (.mark p) s = s.pendantEvent 7 (oneByte p) (takeMark (offsetOf p)) := rfl

theorem exec_drop : exec (.drop p) s = s.pendantEvent 8 (oneByte p) fun s => s.onOffset (offsetOf p) true s.retireRecord := rfl

/-! ### The checks of an offset (R196) -/

theorem offsetSlot_outside (outside : s.table.pendantWindow.length ≤ o.toNat) : s.offsetSlot o = none := if_neg (not_lt.mpr outside)

theorem offsetSlot_inside (inside : o.toNat < s.table.pendantWindow.length) (slot : i.val = s.table.pendantWindow.base + o.toNat) :
    s.offsetSlot o = some i := by
  rw [State.offsetSlot, if_pos inside, dif_pos (slot ▸ i.isLt)]
  exact congrArg some (Fin.ext slot.symm)

theorem pendantLookup_congr {check : Bool} (table : t.table = s.table) (reported : t.pendant.reported = s.pendant.reported) :
    t.pendantLookup o check = s.pendantLookup o check := by
  simp only [State.pendantLookup, State.offsetSlot, State.recordAt, State.slotAt, State.reportedCurrent, State.handleOf, table, reported]
  rfl

theorem pendantLookup_atRequest {check : Bool} : (atRequest s).pendantLookup o check = s.pendantLookup o check := by
  obtain ⟨-, table, -, -, -, -, -, reported, -⟩ := atRequest_fields (s := s)
  exact pendantLookup_congr table reported

theorem pendantLookup_outside {check : Bool} (outside : s.table.pendantWindow.length ≤ o.toNat) : s.pendantLookup o check = .error .owner := by
  rw [State.pendantLookup, offsetSlot_outside outside]

theorem pendantLookup_vacant {check : Bool} (named : s.offsetSlot o = some i) (vacant : s.recordAt i = none) :
    s.pendantLookup o check = .error .vacant := by
  simp [State.pendantLookup, named, vacant]

theorem pendantLookup_stale (named : s.offsetSlot o = some i) (held : s.recordAt i = some r) (owner : r.owner = .pendant)
    (stale : s.pendant.reported[i.val] ≠ some (s.slotAt i).generation) : s.pendantLookup o true = .error .stale := by
  simp [State.pendantLookup, named, held, owner, State.reportedCurrent, stale]

theorem pendantLookup_poll (named : s.offsetSlot o = some i) (held : s.recordAt i = some r) (owner : r.owner = .pendant) :
    s.pendantLookup o false = .ok (s.handleOf i, r) := by
  simp [State.pendantLookup, named, held, owner]

theorem PendantHolds.lookup (holds : PendantHolds s o i r) (check : Bool) : (atRequest s).pendantLookup o check = .ok (s.handleOf i, r) := by
  rw [pendantLookup_atRequest]
  simp [State.pendantLookup, offsetSlot_inside holds.inWindow holds.slot, holds.record, holds.owner, State.reportedCurrent, holds.reported]

theorem onOffset_error {check : Bool} {take : Handle → Record → State × Answer} (refused : s.pendantLookup o check = .error a) :
    s.onOffset o check take = refusedReply s o a := by
  rw [State.onOffset, refused]
  rfl

theorem onOffset_ok {check : Bool} {take : Handle → Record → State × Answer} {h : Handle} (ok : s.pendantLookup o check = .ok (h, r)) :
    s.onOffset o check take = { after := (take h r).1, answer := (take h r).2, offset := some o, mark := none } := by
  rw [State.onOffset, ok]

theorem takeMark_error (refused : s.pendantLookup o true = .error a) : takeMark o s = refusedReply s o a := by
  rw [takeMark, refused]
  rfl

/-- A request of one offset byte, whose refusals are those of the checks. -/
def Checked (o : Byte) (check : Bool) (x : Byte × Instr) : Prop :=
  ∃ take : State → Reply, (∀ s, exec x.2 s = s.pendantEvent x.1 true take)
    ∧ ∀ s a, s.pendantLookup o check = .error a → take s = refusedReply s o a

theorem checked_poll : Checked o false (1, .poll [o]) :=
  ⟨fun s => s.onOffset o false fun _ _ => (s, .ok), fun _ => exec_poll, fun _ _ => onOffset_error⟩

theorem checked_find : Checked o true (3, .find [o]) := ⟨fun s => s.onOffset o true s.findRecord, fun _ => exec_find, fun _ _ => onOffset_error⟩

theorem checked_letGo : Checked o true (4, .letGo [o]) := ⟨fun s => s.onOffset o true s.releaseRecord, fun _ => exec_letGo, fun _ _ => onOffset_error⟩

theorem checked_holdOn : Checked o true (5, .holdOn [o]) :=
  ⟨fun s => s.onOffset o true fun h r => s.setHoldOf h r true, fun _ => exec_holdOn, fun _ _ => onOffset_error⟩

theorem checked_holdOff : Checked o true (6, .holdOff [o]) :=
  ⟨fun s => s.onOffset o true fun h r => s.setHoldOf h r false, fun _ => exec_holdOff, fun _ _ => onOffset_error⟩

theorem checked_mark : Checked o true (7, .mark [o]) := ⟨takeMark o, fun _ => exec_mark, fun _ _ => takeMark_error⟩

theorem checked_drop : Checked o true (8, .drop [o]) := ⟨fun s => s.onOffset o true s.retireRecord, fun _ => exec_drop, fun _ _ => onOffset_error⟩

theorem checked_asks (x : Byte × Instr) (mem : x ∈ [((3 : Byte), Instr.find [o]), (4, .letGo [o]), (5, .holdOn [o]), (6, .holdOff [o]), (7, .mark [o]),
    (8, .drop [o])]) : Checked o true x := by
  simp only [List.mem_cons, List.not_mem_nil, or_false] at mem
  rcases mem with rfl | rfl | rfl | rfl | rfl | rfl
  · exact checked_find
  · exact checked_letGo
  · exact checked_holdOn
  · exact checked_holdOff
  · exact checked_mark
  · exact checked_drop

theorem Checked.refused {check : Bool} {x : Byte × Instr} (checks : Checked o check x) (up : s.resetnLow = false)
    (calm : s.scheduler.passWanted = false) (refused : s.pendantLookup o check = .error a) :
    exec x.2 s = .next (reportedBy (atRequest s) x.1 a (some o) none) := by
  obtain ⟨take, runs, refuses⟩ := checks
  rw [runs]
  exact pendantEvent_unchanged up calm (refuses _ a (pendantLookup_atRequest.trans refused))

/-- A refusal that does not depend on the generation check refuses POLL and the others alike. -/
theorem refused_all (up : s.resetnLow = false) (calm : s.scheduler.passWanted = false) (refused : ∀ check, s.pendantLookup o check = .error a) :
    ∀ x ∈ [((1 : Byte), Instr.poll [o]), (3, .find [o]), (4, .letGo [o]), (5, .holdOn [o]), (6, .holdOff [o]), (7, .mark [o]), (8, .drop [o])],
      exec x.2 s = .next (reportedBy (atRequest s) x.1 a (some o) none) := by
  intro x mem
  rcases List.mem_cons.mp mem with rfl | mem
  · exact checked_poll.refused up calm (refused false)
  · exact (checked_asks x mem).refused up calm (refused true)

/-- A frame of the wrong length answers RANGE under kind 0x80. -/
theorem exec_wrongLength {c : Instr} {k : Byte} {p : List Byte} (up : s.resetnLow = false) (spelt : pendantKindOf c = some (k, p))
    (wrong : p.length ≠ if k = 2 then 0 else 1) : exec c s = .next (reportedBy (atRequest s) 0 .range none none) := by
  cases c <;> cases spelt
  case poll => exact exec_poll.trans (pendantEvent_long up (decide_eq_false wrong))
  case claimNew => exact exec_claimNew.trans (pendantEvent_long up (by simpa using wrong))
  case find => exact exec_find.trans (pendantEvent_long up (decide_eq_false wrong))
  case letGo => exact exec_letGo.trans (pendantEvent_long up (decide_eq_false wrong))
  case holdOn => exact exec_holdOn.trans (pendantEvent_long up (decide_eq_false wrong))
  case holdOff => exact exec_holdOff.trans (pendantEvent_long up (decide_eq_false wrong))
  case mark => exact exec_mark.trans (pendantEvent_long up (decide_eq_false wrong))
  case drop => exact exec_drop.trans (pendantEvent_long up (decide_eq_false wrong))

/-! ### The status frame (R202, R203) -/

section
variable {k : Byte} {mark : Option Byte}

theorem shownIntensity_other (other : ∀ c, s.pursuit = some c → c.target ≠ s.handleOf i) : s.shownIntensity i = none := by
  rw [State.shownIntensity]
  cases pursued : s.pursuit with
  | none => rfl
  | some c => exact if_neg (other c pursued)

theorem shownIntensity_pursued {c : Context} (pursued : s.pursuit = some c) (target : c.target = s.handleOf i) :
    s.shownIntensity i = c.latestIntensity := by
  rw [State.shownIntensity, pursued]
  exact if_pos target

theorem statusFrame_slot (named : s.offsetSlot o = some i) : s.statusFrame k a (some o) mark =
    { kind := 0x80#8 + k, answer := a, offset := some o, named := some { handle := s.handleOf i, state := (s.recordAt i).map (·.state) }
      intensity := s.shownIntensity i, fixRange := ((s.recordAt i).bind (·.fix)).map (·.range)
      mark := mark.orElse fun _ => ((s.recordAt i).bind (·.fix)).bind (·.mark) } := by
  simp [State.statusFrame, named]

theorem statusFrame_unnamed {offset : Option Byte} (unnamed : offset.bind s.offsetSlot = none) : s.statusFrame k a offset mark =
    { kind := 0x80#8 + k, answer := a, offset := offset, named := none, intensity := none, fixRange := none, mark := mark } := by
  cases mark <;> simp [State.statusFrame, unnamed]

end

theorem send_reported (p : PendantLink) (f : StatusFrame) : (p.send f).reported = p.reported := by
  unfold PendantLink.send
  split <;> rfl

theorem sendStatus_reported {f : StatusFrame} {n : NamedSlot} (named : f.named = some n) :
    (s.sendStatus f).pendant.reported = s.pendant.reported.set n.handle.slot.val (some n.handle.generation) n.handle.slot.isLt := by
  have same : (s.sendStatus f).pendant = (s.pendant.send f).report f := rfl
  rw [same, PendantLink.report, named]
  exact congrArg (fun v => Vector.set v _ _ _) (send_reported _ _)

theorem sendStatus_reported_unnamed {f : StatusFrame} (unnamed : f.named = none) : (s.sendStatus f).pendant.reported = s.pendant.reported := by
  have same : (s.sendStatus f).pendant = (s.pendant.send f).report f := rfl
  rw [same, PendantLink.report, unnamed]
  exact send_reported _ _

theorem sendStatus_line (f : StatusFrame) :
    (s.sendStatus f).pendant.sending = (s.pendant.send f).sending ∧ (s.sendStatus f).pendant.waiting = (s.pendant.send f).waiting := by
  have same : (s.sendStatus f).pendant = (s.pendant.send f).report f := rfl
  rw [same, PendantLink.report]
  cases f.named <;> exact ⟨rfl, rfl⟩

theorem send_free {p : PendantLink} (f : StatusFrame) (free : p.sending = none) : p.send f = { p with sending := some f } := by
  rw [PendantLink.send, if_pos (by simp [free])]

theorem send_busy {p : PendantLink} (f : StatusFrame) {x : StatusFrame} (busy : p.sending = some x) :
    p.send f = { p with waiting := (if 4 ≤ p.waiting.length then p.waiting.tail else p.waiting) ++ [f] } := by
  rw [PendantLink.send, if_neg (by simp [busy])]

/-- The three flags of a status frame. -/
theorem statusFlags (a b c : Bool) :
    let flags := flagBit 0 a ||| flagBit 1 b ||| flagBit 2 c
    flags.getLsbD 0 = a ∧ flags.getLsbD 1 = b ∧ flags.getLsbD 2 = c ∧ flags.toNat < 8 := by
  revert a b c
  decide

/-- What a status frame's payload says of the slot. -/
def namedBytes : Option NamedSlot → List Byte
  | some n => [BitVec.ofNat 8 n.handle.slot.val, n.handle.generation, stateCode n.state]
  | none => [0xFF#8, 0x00#8, 0xFF#8]

theorem payload_eq (f : StatusFrame) :
    f.payload = [answerCode f.answer, f.offset.getD 0xFF#8] ++ namedBytes f.named
      ++ [flagBit 0 f.intensity.isSome ||| flagBit 1 f.fixRange.isSome ||| flagBit 2 f.mark.isSome] ++ bytes2 (BitVec.ofNat 16 (f.intensity.getD 0))
      ++ bytes4 (BitVec.ofNat 32 (f.fixRange.getD 0)) ++ [f.mark.getD 0] := by
  rw [StatusFrame.payload]
  cases f.named <;> rfl

theorem length_payload (f : StatusFrame) : f.payload.length = 13 := by
  rw [payload_eq]
  cases f.named <;> rfl

theorem bytes_eq (f : StatusFrame) :
    f.bytes = 0xA7#8 :: 13#8 :: f.kind :: f.payload ++ [f.payload.foldl (· ^^^ ·) (13#8 ^^^ f.kind)] := by
  have start : (0#8 : Byte) ^^^ BitVec.ofNat 8 13 ^^^ f.kind = 13#8 ^^^ f.kind := by rw [BitVec.zero_xor]
  rw [StatusFrame.bytes, pendantFrame, pendantCheck, length_payload]
  simp only [List.foldl_cons, start]

end Sys2Proof.Machine

open Sys2Proof Sys2Proof.Machine

/-- Settles O54: the length, the checks of an offset, the status frame, and the line it goes to. -/
theorem pendantChecksAndStatus : Obligations.PendantChecksAndStatus := by
  unfold Obligations.PendantChecksAndStatus
  intro s o up calm u asks refuses offsetSlot
  have inside {i : Fin 48} (named : offsetSlot i) : s.offsetSlot o = some i := offsetSlot_inside named.1 named.2
  refine ⟨fun c k p spelt wrong => exec_wrongLength up spelt wrong, fun outside => refused_all up calm fun _ => pendantLookup_outside outside,
    fun i named vacant => refused_all up calm fun _ => pendantLookup_vacant (inside named) vacant,
    fun i r named held owner => refused_all up calm fun _ => pendantLookup_owner _ (inside named) held (by simp [owner]),
    fun i r named held owner => ⟨?_, fun stale x mem => ?_⟩, fun k a mark i r named held => ?_, fun k a mark i named vacant other => ?_,
    fun k a mark offset unnamed => ?_, fun f => ?_, fun f => ?_⟩
  · refine exec_poll.trans (pendantEvent_unchanged up calm ?_)
    exact onOffset_ok (pendantLookup_atRequest.trans (pendantLookup_poll (inside named) held owner))
  · exact (checked_asks x mem).refused up calm (pendantLookup_stale (inside named) held owner stale)
  · intro f
    have frame : f = _ := statusFrame_slot (inside named)
    rw [held] at frame
    refine ⟨by rw [frame], by rw [frame], by rw [frame], by rw [frame]; rfl, fun c pursued target => ?_, fun other => ?_, by rw [frame]; rfl,
      fun none_ => ?_, fun some_ => ?_, sendStatus_reported (n := { handle := s.handleOf i, state := some r.state }) (by rw [frame]; rfl)⟩
    · rw [frame]
      exact shownIntensity_pursued pursued target
    · rw [frame]
      exact shownIntensity_other other
    · rw [frame, none_]
      rfl
    · obtain ⟨m, rfl⟩ := Option.ne_none_iff_exists'.mp some_
      rw [frame]
      rfl
  · intro f
    have frame : f = _ := statusFrame_slot (inside named)
    rw [vacant, shownIntensity_other other] at frame
    have spelt : f = { kind := 0x80#8 + k, answer := a, offset := some o, named := some { handle := s.handleOf i, state := none }, intensity := none
                       fixRange := none, mark := mark } := by
      rw [frame]
      cases mark <;> rfl
    exact ⟨spelt, sendStatus_reported (n := { handle := s.handleOf i, state := none }) (by rw [spelt])⟩
  · intro f
    have nowhere : offset.bind s.offsetSlot = none := by
      rcases unnamed with rfl | ⟨rfl, outside⟩
      · rfl
      · exact offsetSlot_outside outside
    have frame : f = _ := statusFrame_unnamed nowhere
    exact ⟨frame, sendStatus_reported_unnamed (by rw [frame])⟩
  · obtain ⟨intensity, range, mark, small⟩ := statusFlags f.intensity.isSome f.fixRange.isSome f.mark.isSome
    refine ⟨namedBytes f.named, _, fun n named => ?_, fun unnamed => ?_, intensity, range, mark, small, payload_eq f, length_payload f, bytes_eq f⟩
    · rw [named]
      rfl
    · rw [unnamed]
      rfl
  · intro p
    obtain ⟨sending, waiting⟩ := sendStatus_line (s := s) f
    refine ⟨fun free => ?_, fun x busy => ?_⟩
    · rw [send_free f free] at sending waiting
      exact ⟨sending, waiting⟩
    · rw [send_busy f busy] at sending waiting
      refine ⟨sending.trans busy, fun short => waiting.trans ?_, fun full => waiting.trans ?_⟩
      · exact congrArg (· ++ [f]) (if_neg (not_le.mpr short))
      · exact congrArg (· ++ [f]) (if_pos full)
end


section
/-! CLAIM-NEW and MARK (R65, R198, R201). -/

namespace Sys2Proof.Machine

variable {s : State} {o : Byte} {i : Fin 48} {r : Record}

/-- CLAIM-NEW makes a record in a slot of the pendant window, whose own reference is the window's base. -/
theorem takeClaimNew_made (inside : s.table.pendantWindow.contains i = true) (vacant : s.recordAt i = none)
    (below : ∀ j, j < i → s.table.pendantWindow.contains j = true → s.recordAt j ≠ none) : takeClaimNew s =
      { after := s.setSlot i { generation := (s.slotAt i).generation, record := some (Record.created .roving 0 .pendant) }, answer := .ok
        offset := some (BitVec.ofNat 8 (i.val - s.table.pendantWindow.base)), mark := none } := by
  rw [takeClaimNew, createIn_some .roving 0 .pendant inside vacant below]
  rfl

theorem takeClaimNew_full (full : ∀ i, s.table.pendantWindow.contains i = true → s.recordAt i ≠ none) :
    takeClaimNew s = { after := s, answer := .full, offset := none, mark := none } := by
  rw [takeClaimNew, createIn_none .roving 0 .pendant full]

variable {h : Handle}

theorem takeMark_notLocked (found : s.pendantLookup o true = .ok (h, r)) (unlocked : r.state ≠ .active .locked) :
    takeMark o s = { after := s, answer := .notLocked, offset := some o, mark := none } := by
  rw [takeMark, found]
  exact if_neg unlocked

theorem takeMark_locked (found : s.pendantLookup o true = .ok (h, r)) (locked : r.state = .active .locked) : takeMark o s =
    { after := s.issueMark, answer := .ok, offset := some o, mark := some (nextMark s.pendant.markCounter) } := by
  rw [takeMark, found]
  exact if_pos locked

/-- The part after mark m is issued to a pursuit (R65). -/
def markIssued (s : State) (c : Context) (m : Byte) : State :=
  { s with pendant := { s.pendant with markCounter := m }, pursuit := some { c with pendingMark := some m } }

theorem issueMark_pursuing {c : Context} (pursued : s.pursuit = some c) : s.issueMark = markIssued s c (nextMark s.pendant.markCounter) := by
  rw [State.issueMark, pursued]
  rfl

end Sys2Proof.Machine

open Sys2Proof Sys2Proof.Machine

/-- Settles O55: CLAIM-NEW by the lowest VACANT slot of the pendant window, and MARK by the record's state. -/
theorem pendantClaimsAndMarks : Obligations.PendantClaimsAndMarks := by
  unfold Obligations.PendantClaimsAndMarks
  intro made s o up calm u
  obtain ⟨-, table, -, pursuit, arbiter, scheduler, -, -, counter⟩ := atRequest_fields (s := s)
  have window : (atRequest s).table.pendantWindow = s.table.pendantWindow := congrArg Table.pendantWindow table
  refine ⟨fun full => ?_, fun i inside vacant below => ?_, fun i r holds unlocked => ?_, fun i r c holds locked pursued => ?_⟩
  · refine exec_claimNew.trans (pendantEvent_unchanged up calm (takeClaimNew_full fun i inside => ?_))
    rw [recordAt_atRequest]
    exact full i (window ▸ inside)
  · have taken := takeClaimNew_made (s := atRequest s) (i := i) (by rw [window]; exact inside) (recordAt_atRequest.trans vacant) fun j lower within => by
      rw [recordAt_atRequest]
      exact below j lower (window ▸ within)
    rw [window, slotAt_atRequest] at taken
    exact exec_claimNew.trans (pendantEvent_keeps up taken ((congrArg Scheduler.passWanted scheduler).trans calm)
      (le_of_eq (congrArg (fun x : Arbiter => x.queue.length) arbiter).symm))
  · exact exec_mark.trans (pendantEvent_unchanged up calm (takeMark_notLocked (holds.lookup true) unlocked))
  · intro m
    have taken := takeMark_locked (holds.lookup true) locked
    rw [issueMark_pursuing (pursuit.trans pursued), counter] at taken
    exact exec_mark.trans (pendantEvent_keeps up taken ((congrArg Scheduler.passWanted scheduler).trans calm)
      (le_of_eq (congrArg (fun x : Arbiter => x.queue.length) arbiter).symm))
end


section
/-! Overlays: rewritings of a part of the state that the arbiter and the scheduler neither read nor write. An operation on the overlaid state is the overlaid
result of the operation. -/

namespace Sys2Proof.Machine

/-- A rewriting of the state that the arbiter, the scheduler and the table neither read nor undo. -/
structure Overlay (φ : State → State) : Prop where
  table : ∀ s, (φ s).table = s.table
  pursuit : ∀ s, (φ s).pursuit = s.pursuit
  arbiter : ∀ s, (φ s).arbiter = s.arbiter
  scheduler : ∀ s, (φ s).scheduler = s.scheduler
  time : ∀ s, (φ s).time = s.time
  setContext : ∀ s c, (φ s).setContext c = φ (s.setContext c)
  setGrant : ∀ s g, (φ s).setGrant g = φ (s.setGrant g)
  setQueue : ∀ s l, (φ s).setQueue l = φ (s.setQueue l)
  setStack : ∀ s l, (φ s).setStack l = φ (s.setStack l)
  setArrivalCounter : ∀ s n, (φ s).setArrivalCounter n = φ (s.setArrivalCounter n)
  setEntries : ∀ s l, (φ s).setEntries l = φ (s.setEntries l)
  setPassWanted : ∀ s b, (φ s).setPassWanted b = φ (s.setPassWanted b)
  sendMove : ∀ s d, (φ s).sendMove d = φ (s.sendMove d)
  sendHalt : ∀ s, (φ s).sendHalt = φ s.sendHalt
  withdrawRange : ∀ s, (φ s).withdrawRange = φ s.withdrawRange
  modifyRecord : ∀ s h f, (∀ r : Record, (f r).notices = r.notices) → (φ s).modifyRecord h f = φ (s.modifyRecord h f)
  setRecordNotice : ∀ s k h, (φ s).setRecordNotice k h = φ (s.setRecordNotice k h)
  setDeviceNotice : ∀ s k, (φ s).setDeviceNotice k = φ (s.setDeviceNotice k)

/-! ### The overlays -/

/-- The station link rewritten. -/
def withLink (x : StationLink) (s : State) : State := { s with link := x }

theorem withLink_overlay (x : StationLink) : Overlay (withLink x) where
  table _ := rfl
  pursuit _ := rfl
  arbiter _ := rfl
  scheduler _ := rfl
  time _ := rfl
  setContext _ _ := rfl
  setGrant _ _ := rfl
  setQueue _ _ := rfl
  setStack _ _ := rfl
  setArrivalCounter _ _ := rfl
  setEntries _ _ := rfl
  setPassWanted _ _ := rfl
  sendMove _ _ := rfl
  sendHalt _ := rfl
  withdrawRange _ := rfl
  modifyRecord s h f _ := by
    unfold State.modifyRecord
    rw [show (withLink x s).live h = s.live h from rfl]
    cases s.live h <;> rfl
  setRecordNotice s k h := by
    unfold State.setRecordNotice State.modifyRecord
    rw [show (withLink x s).live h = s.live h from rfl]
    cases s.live h <;> rfl
  setDeviceNotice _ _ := rfl

/-- The sweep unit rewritten. -/
def withSweep (w : SweepUnit) (s : State) : State := s.setSweep w

theorem withSweep_overlay (w : SweepUnit) : Overlay (withSweep w) where
  table _ := rfl
  pursuit _ := rfl
  arbiter _ := rfl
  scheduler _ := rfl
  time _ := rfl
  setContext _ _ := rfl
  setGrant _ _ := rfl
  setQueue _ _ := rfl
  setStack _ _ := rfl
  setArrivalCounter _ _ := rfl
  setEntries _ _ := rfl
  setPassWanted _ _ := rfl
  sendMove _ _ := rfl
  sendHalt _ := rfl
  withdrawRange _ := rfl
  modifyRecord s h f _ := by
    unfold State.modifyRecord
    rw [show (withSweep w s).live h = s.live h from rfl]
    cases s.live h <;> rfl
  setRecordNotice s k h := by
    unfold State.setRecordNotice State.modifyRecord
    rw [show (withSweep w s).live h = s.live h from rfl]
    cases s.live h <;> rfl
  setDeviceNotice _ _ := rfl

theorem setDeviceNotice_comm (s : State) (k k' : DeviceNotice) :
    (s.setDeviceNotice k).setDeviceNotice k' = (s.setDeviceNotice k').setDeviceNotice k := by
  have bits : s.notices.device ||| deviceBit k ||| deviceBit k' = s.notices.device ||| deviceBit k' ||| deviceBit k := by
    rw [BitVec.or_assoc, BitVec.or_comm (deviceBit k), ← BitVec.or_assoc]
  have judged (a b : DeviceNotice) : (s.setDeviceNotice a).setDeviceNotice b
      = State.judgeLine { s with notices := { s.notices with device := s.notices.device ||| deviceBit a ||| deviceBit b } } := rfl
  rw [judged, judged, bits]

theorem setDeviceNotice_overlay (k : DeviceNotice) : Overlay (·.setDeviceNotice k) where
  table _ := rfl
  pursuit _ := rfl
  arbiter _ := rfl
  scheduler _ := rfl
  time _ := rfl
  setContext _ _ := rfl
  setGrant _ _ := rfl
  setQueue _ _ := rfl
  setStack _ _ := rfl
  setArrivalCounter _ _ := rfl
  setEntries _ _ := rfl
  setPassWanted _ _ := rfl
  sendMove _ _ := rfl
  sendHalt _ := rfl
  withdrawRange _ := rfl
  modifyRecord s h f same := by
    cases live : s.live h with
    | none =>
      rw [modifyRecord_none s f live]
      exact modifyRecord_none (s.setDeviceNotice k) f live
    | some r =>
      rw [modifyRecord_live s f live, modifyRecord_live (s.setDeviceNotice k) f live]
      exact (setDeviceNotice_withRecord s (f r) live (same r) k).symm
  setRecordNotice s j h := by
    cases live : s.live h with
    | none =>
      have left (t : State) (dead : t.live h = none) : t.setRecordNotice j h = t.judgeLine := by
        rw [State.setRecordNotice, modifyRecord_none t _ dead]
      rw [left s live, left (s.setDeviceNotice k) live]
      rfl
    | some r =>
      rw [setRecordNotice_live j live, setRecordNotice_live (s := s.setDeviceNotice k) j live]
      rfl
  setDeviceNotice s j := (setDeviceNotice_comm s j k).symm

/-! ### The operations under an overlay -/

section
variable {φ : State → State} (o : Overlay φ) (s : State)
include o

theorem Overlay.live (h : Handle) : (φ s).live h = s.live h := by
  rw [State.live, State.live, State.slotAt, State.slotAt, o.table]

theorem Overlay.now : (φ s).now = s.now := by rw [State.now, State.now, o.time]

theorem Overlay.entryAt (i : Fin 48) : (φ s).entryAt i = s.entryAt i := by rw [State.entryAt, State.entryAt, o.scheduler]

theorem Overlay.toDormant (h : Handle) (x : EndOutcome) : (φ s).toDormant h x = φ (s.toDormant h x) := by
  unfold State.toDormant
  rw [o.modifyRecord s h (fun r => { r with state := .dormant, outcome := x }) fun _ => rfl]
  generalize s.modifyRecord h _ = t
  dsimp only
  rw [o.entryAt]
  cases t.entryAt h.slot with
  | none => rfl
  | some e =>
    dsimp only
    rw [o.setPassWanted, apply_ite φ]

theorem Overlay.setRecordState (h : Handle) (st : RecState) : (φ s).setRecordState h st = φ (s.setRecordState h st) :=
  o.modifyRecord s h _ fun _ => rfl

theorem Overlay.scheduleAfter (h : Handle) (r : Record) (t : Time) : (φ s).scheduleAfter h r t = φ (s.scheduleAfter h r t) := by
  rw [State.scheduleAfter, State.scheduleAfter, State.placeEntry, State.placeEntry, o.scheduler, o.setEntries]

theorem Overlay.miss (h : Handle) : (φ s).miss h = φ (s.miss h) := by
  unfold State.miss
  rw [o.live]
  cases s.live h with
  | none => rfl
  | some r =>
    dsimp only
    rw [o.modifyRecord s h (fun r => { r with missCount := satAdd 15 r.missCount 1 }) fun _ => rfl, o.setRecordNotice, o.now, o.scheduleAfter]

theorem Overlay.setEntryStatus (i : Fin 48) (st : RevisitStatus) : (φ s).setEntryStatus i st = φ (s.setEntryStatus i st) := by
  rw [State.setEntryStatus, State.setEntryStatus, o.scheduler, o.setEntries]

theorem Overlay.revisitReport (h : Handle) (x : EndOutcome) : (φ s).revisitReport h x = φ (s.revisitReport h x) := by
  unfold State.revisitReport
  rw [o.entryAt, o.live]
  cases s.entryAt h.slot with
  | none => rfl
  | some e =>
    dsimp only
    by_cases offered : e.status = .offered
    · rw [if_pos offered, if_pos offered]
      cases x
      case lost => exact o.miss s h
      case fault => exact o.miss s h
      case parked => exact o.setEntryStatus s h.slot .due
      case released =>
        cases s.live h with
        | none => rfl
        | some r =>
          dsimp only
          rw [o.now, o.scheduleAfter]
      all_goals rfl
    · rw [if_neg offered, if_neg offered]

theorem Overlay.driftOut (h : Handle) : (φ s).driftOut h = s.driftOut h := by rw [State.driftOut, State.driftOut, o.live]

theorem Overlay.reportEnd (q : Request) (x : EndOutcome) : (φ s).reportEnd q x = φ (s.reportEnd q x) := by
  unfold State.reportEnd
  cases q.origin with
  | station => rfl
  | pendant => rfl
  | revisit =>
    dsimp only
    rw [o.revisitReport, o.setPassWanted, apply_ite φ]
  | internal =>
    dsimp only
    rw [o.driftOut, o.setDeviceNotice, ← apply_ite φ, o.setPassWanted, ← apply_ite φ]

theorem Overlay.makeEntry (q : Request) : (φ s).makeEntry q = φ (s.makeEntry q) := by
  unfold State.makeEntry
  simp only [o.arbiter, o.setQueue, o.setArrivalCounter, ← apply_ite φ]

theorem Overlay.enqueue (q : Request) : (φ s).enqueue q = φ (s.enqueue q) := by
  rw [State.enqueue, State.enqueue, o.makeEntry, o.setRecordState]

theorem Overlay.startSlew (q : Request) (d : Direction) : (φ s).startSlew q d = φ (s.startSlew q d) := by
  rw [State.startSlew, State.startSlew, o.setGrant, o.setContext, o.sendMove, o.setRecordState]

theorem Overlay.endPursuit (b : Bool) : (φ s).endPursuit b = φ (s.endPursuit b) := by
  unfold State.endPursuit
  rw [o.pursuit]
  cases s.pursuit with
  | none => rfl
  | some c =>
    dsimp only
    rw [o.setContext, o.withdrawRange, o.modifyRecord _ c.target (fun r => { r with lockLatch := false }) fun _ => rfl, apply_ite φ]

theorem Overlay.closeRequest (q : Request) (x : EndOutcome) : (φ s).closeRequest q x = φ (s.closeRequest q x) := by
  unfold State.closeRequest
  dsimp only
  rw [o.setGrant, o.toDormant, o.reportEnd, o.setDeviceNotice, apply_ite φ]

theorem Overlay.lostAtGrant (q : Request) : (φ s).lostAtGrant q = φ (s.lostAtGrant q) := by
  rw [State.lostAtGrant, State.lostAtGrant, o.setRecordNotice, o.closeRequest]

theorem Overlay.loseEntry (e : QueueEntry) : (φ s).loseEntry e = φ (s.loseEntry e) := by
  rw [State.loseEntry, State.loseEntry, o.arbiter, o.setQueue, o.setPassWanted]

theorem Overlay.pickWinner : (φ s).pickWinner = s.pickWinner.map fun p => (p.1, φ p.2) := by
  unfold State.pickWinner
  rw [o.arbiter]
  cases s.arbiter.stack with
  | nil =>
    cases bestEntry s.arbiter.queue with
    | none => rfl
    | some e => exact congrArg (fun t => some (e.request, t)) (o.loseEntry s e)
  | cons top rest =>
    cases bestEntry s.arbiter.queue with
    | none => exact congrArg (fun t => some (top, t)) (o.setStack s rest)
    | some e =>
      dsimp only
      split
      · exact congrArg (fun t => some (top, t)) (o.setStack s rest)
      · exact congrArg (fun t => some (e.request, t)) (o.loseEntry s e)

theorem Overlay.predictionFor (q : Request) (t : Time) : (φ s).predictionFor q t = s.predictionFor q t := by
  rw [State.predictionFor, State.predictionFor, o.live]

theorem Overlay.halted (b : Bool) : (if b then (φ s).sendHalt else φ s) = φ (if b then s.sendHalt else s) := by
  rw [o.sendHalt, apply_ite φ]

theorem Overlay.selectLoop (n : Nat) : ∀ (b : Bool) (s : State), selectLoop n b (φ s) = φ (selectLoop n b s) := by
  induction n with
  | zero => exact fun b s => o.halted s b
  | succ n ih =>
    intro b s
    rw [Machine.selectLoop, Machine.selectLoop, o.pickWinner]
    cases s.pickWinner with
    | none => exact o.halted s b
    | some p =>
      obtain ⟨q, t⟩ := p
      dsimp only [Option.map_some]
      rw [o.predictionFor, o.now]
      cases t.predictionFor q t.now with
      | none =>
        dsimp only
        rw [o.lostAtGrant, ih]
      | some d => exact o.startSlew t q d

theorem Overlay.select (b : Bool) : (φ s).select b = φ (s.select b) := by
  unfold State.select
  rw [o.arbiter, o.selectLoop, apply_ite φ]

theorem Overlay.grantTo (q : Request) : (φ s).grantTo q = φ (s.grantTo q) := by
  unfold State.grantTo
  rw [o.predictionFor, o.now]
  cases s.predictionFor q s.now with
  | none =>
    dsimp only
    rw [o.lostAtGrant, o.select]
  | some d => exact o.startSlew s q d

theorem Overlay.pushStack (q : Request) : (φ s).pushStack q = φ (s.pushStack q) := by
  unfold State.pushStack
  rw [o.arbiter]
  cases s.arbiter.stack[3]? with
  | none =>
    dsimp only
    rw [o.arbiter, o.setStack, o.setRecordState]
  | some bottom =>
    dsimp only
    rw [o.setStack, o.toDormant, o.setRecordNotice]
    generalize State.setRecordNotice _ .drop bottom.handle = t
    rw [o.arbiter, o.setStack, o.setRecordState]

theorem Overlay.autoResumeOf (h : Handle) : (φ s).autoResumeOf h = s.autoResumeOf h := by rw [State.autoResumeOf, State.autoResumeOf, o.live]

theorem Overlay.dispose (g : Request) : (φ s).dispose g = φ (s.dispose g) := by
  have plain : (if (φ s).autoResumeOf g.handle then ((φ s).pushStack g).setPassWanted true
      else (((φ s).toDormant g.handle .preempted).setRecordNotice .drop g.handle).setPassWanted true)
      = φ (if s.autoResumeOf g.handle then (s.pushStack g).setPassWanted true
      else ((s.toDormant g.handle .preempted).setRecordNotice .drop g.handle).setPassWanted true) := by
    rw [o.autoResumeOf, o.pushStack, o.setPassWanted, o.toDormant, o.setRecordNotice, o.setPassWanted, apply_ite φ]
  unfold State.dispose
  cases g.origin with
  | revisit => exact o.enqueue s g
  | internal => exact o.enqueue s g
  | station => exact plain
  | pendant => exact plain

theorem Overlay.preempt (g : Request) (e : QueueEntry) : (φ s).preempt g e = φ (s.preempt g e) := by
  unfold State.preempt
  dsimp only
  rw [o.arbiter, o.setQueue, o.endPursuit, o.setGrant, o.dispose, o.grantTo]

theorem Overlay.preemptionTest : (φ s).preemptionTest = φ s.preemptionTest := by
  unfold State.preemptionTest
  rw [o.arbiter]
  cases s.arbiter.grant with
  | none => rfl
  | some g =>
    cases bestEntry s.arbiter.queue with
    | none => rfl
    | some e =>
      dsimp only
      rw [o.preempt, apply_ite φ]

theorem Overlay.arbitrate : (φ s).arbitrate = φ s.arbitrate := by
  unfold State.arbitrate
  rw [o.arbiter, o.select, o.preemptionTest, apply_ite φ]

theorem Overlay.queuedAt (i : Fin 48) : (φ s).queuedAt i = s.queuedAt i := by rw [State.queuedAt, State.queuedAt, o.arbiter]

theorem Overlay.stackedAt (i : Fin 48) : (φ s).stackedAt i = s.stackedAt i := by rw [State.stackedAt, State.stackedAt, o.arbiter]

theorem Overlay.releaseRecord (h : Handle) (r : Record) :
    (φ s).releaseRecord h r = (φ (s.releaseRecord h r).1, (s.releaseRecord h r).2) := by
  unfold State.releaseRecord
  cases r.state with
  | dormant => rfl
  | queued =>
    dsimp only
    rw [o.queuedAt]
    cases s.queuedAt h.slot with
    | none => exact congrArg (·, Answer.ok) (o.toDormant s h .released)
    | some e =>
      dsimp only
      rw [o.arbiter, o.setQueue, o.toDormant, o.reportEnd]
  | suspended =>
    dsimp only
    rw [o.stackedAt]
    cases s.stackedAt h.slot with
    | none => exact congrArg (·, Answer.ok) (o.toDormant s h .released)
    | some e =>
      dsimp only
      rw [o.arbiter, o.setStack, o.toDormant, o.reportEnd]
  | active st =>
    dsimp only
    rw [o.arbiter]
    cases s.arbiter.grant with
    | none => exact congrArg (·, Answer.ok) (o.toDormant s h .released)
    | some g =>
      dsimp only
      rw [o.endPursuit, o.setGrant, o.toDormant, o.reportEnd, o.select]

/-! ### The passes under an overlay -/

theorem Overlay.takeOffer (h : Handle) : (φ s).takeOffer h = (φ (s.takeOffer h).1, (s.takeOffer h).2) := by
  unfold State.takeOffer State.queueFull
  rw [o.arbiter, o.live]
  split
  · rfl
  · cases s.live h with
    | none => rfl
    | some r =>
      dsimp only
      rw [o.setEntryStatus, o.enqueue, o.arbitrate]
      split
      · rfl
      · split
        · rfl
        · split <;> rfl

theorem Overlay.offerable (i : Fin 48) : (φ s).offerable i = s.offerable i := by
  rw [State.offerable, State.offerable, o.entryAt]
  cases s.entryAt i with
  | none => rfl
  | some e =>
    dsimp only
    rw [o.live]

theorem Overlay.offerWalk (l : List (Fin 48)) : ∀ s, offerWalk l (φ s) = φ (offerWalk l s) := by
  induction l with
  | nil => exact fun _ => rfl
  | cons i rest ih =>
    intro s
    rw [Machine.offerWalk, Machine.offerWalk, o.offerable]
    cases s.offerable i with
    | none => exact ih s
    | some h =>
      dsimp only
      rw [o.takeOffer]
      obtain ⟨t, a⟩ := s.takeOffer h
      cases a
      case full => rfl
      case parked => rfl
      case noAim =>
        dsimp only
        rw [o.miss, ih]
      all_goals exact ih t

theorem Overlay.dueSlots : (φ s).dueSlots = s.dueSlots := by rw [State.dueSlots, State.dueSlots, o.scheduler]

theorem Overlay.offerPass : (φ s).offerPass = φ s.offerPass := by rw [State.offerPass, State.offerPass, o.dueSlots, o.offerWalk]

theorem Overlay.passLoop (n : Nat) : ∀ s, passLoop n (φ s) = φ (passLoop n s) := by
  induction n with
  | zero => exact fun s => o.setPassWanted s false
  | succ n ih =>
    intro s
    rw [Machine.passLoop, Machine.passLoop]
    dsimp only
    rw [o.scheduler, o.arbiter, o.setPassWanted, o.offerPass, o.arbiter, o.setPassWanted, ← apply_ite φ, ih, apply_ite φ]

theorem Overlay.settle (n : Nat) : (φ s).settle n = φ (s.settle n) := by
  unfold State.settle
  dsimp only
  rw [o.arbiter, o.setPassWanted, ← apply_ite φ, o.dueSlots, o.passLoop]

end

end Sys2Proof.Machine
end


section
/-! FIND (R84, R86, R88 to R92, R199): PURSUE under PENDANT origin, as it leaves the part. -/

namespace Sys2Proof.Machine

variable {s y : State} {o : Byte} {i : Fin 48} {r rg rw_ : Record} {a : Answer} {h : Handle} {g : Request} {c : Context} {d : Direction} {p : Nat}
  {origin : Origin}

/-! ### A record pursued with nothing sent before -/

/-- A record that finds the beam free is slewed to, and no pass follows. -/
theorem pursue_granted (live : y.live h = some r) (state : r.state = .dormant) (predicted : r.prediction none y.now = some d)
    (running : y.arbiter.runMode = .running) (free : y.arbiter.grant = none) (alone : NoOtherRequest y) (below : y.arbiter.arrivalCounter < 65535) :
    ∃ t, (sentNothing y).pursueRecord h r origin p none = (t, .ok) ∧ ∀ n, t.settle n =
      beamGranted ((sentNothing y).withRecord h { r with state := .active .slewing }) (requestOf h origin p none) d := by
  obtain ⟨none_, queue, stack⟩ := alone
  have somewhere : r.prediction none (sentNothing y).now ≠ none := fun lost => nomatch lost.symm.trans predicted
  have room : (sentNothing y).arbiter.queue.length < 12 := by
    rw [show (sentNothing y).arbiter.queue = [] from queue]
    exact Nat.zero_lt_succ _
  obtain ⟨b, slewed⟩ := enqueue_arbitrate_free (s := sentNothing y) (q := requestOf h origin p none) free running queue stack
    (by exact Nat.ne_of_lt below) live predicted
  refine ⟨_, (pursueRecord_entered state somewhere room).trans (congrArg (·, Answer.ok) slewed), fun n => ?_⟩
  rw [settled_calm (t := slewedFresh (sentNothing y) (requestOf h origin p none) r d) none_.2 none_.1]
  rfl

/-- A record whose request does not top the grant is QUEUED. -/
theorem pursue_queued (live : s.live h = some r) (state : r.state = .dormant) (somewhere : r.prediction none s.now ≠ none)
    (granted : s.arbiter.grant = some g) (under : p ≤ g.priority) (below : ∀ e ∈ s.arbiter.queue, e.request.priority ≤ g.priority)
    (room : s.arbiter.queue.length < 12) (counts : s.arbiter.arrivalCounter < 65535) :
    s.pursueRecord h r origin p none = ({ (arrivalCounted s).withRecord h { r with state := .queued } with arbiter := { (arrivalCounted s).arbiter with
      queue := s.arbiter.queue ++ [{ request := requestOf h origin p none, arrival := s.arbiter.arrivalCounter }] } }, .ok) := by
  have entered := enqueue_below (s := s) (q := requestOf h origin p none) live (Nat.ne_of_lt counts)
  have granted' : (s.enqueue (requestOf h origin p none)).arbiter.grant = some g := by rw [entered]; exact granted
  have stays : (s.enqueue (requestOf h origin p none)).arbitrate = s.enqueue (requestOf h origin p none) := by
    rw [arbitrate_granted granted']
    refine preemptionTest_below granted' fun e mem => ?_
    rw [entered] at mem
    rcases List.mem_append.mp mem with old | new
    · exact below e old
    · rw [List.mem_singleton.mp new]
      exact under
  rw [pursueRecord_entered state somewhere room, stays, entered]
  rfl

/-- No pass follows a preemption that nothing sent before. -/
theorem settle_beamTaken {n : Nat} {b : Bool} {q : Request} {locked : Bool} (none_ : NothingDue y) (bottom : BottomLives y) :
    (behind (sentNothing y).link b (beamTaken (sentNothing y) g rg locked q r d)).settle n = beamTaken (sentNothing y) g rg locked q r d := by
  obtain ⟨scheduler, link⟩ := beamTaken_fields (v := sentNothing y) (g := g) (rg := rg) (q := q) (r := r) (d := d) (locked := locked) bottom
  generalize beamTaken (sentNothing y) g rg locked q r d = x at scheduler link ⊢
  have due : (behind (sentNothing y).link b x).dueSlots = [] := by
    rw [State.dueSlots]
    refine (congrArg (fun z : Scheduler => (z.entries.filter fun e => decide (e.status = .due)).map fun e => e.handle.slot) scheduler).trans ?_
    exact none_.2
  have calm : x.scheduler.passWanted = false := (congrArg Scheduler.passWanted scheduler).trans none_.1
  have self := behind_self calm
  rw [link] at self
  rw [settle_nothingDue _ due]
  exact self

/-- A record whose request tops the grant takes the beam. -/
theorem pursue_preempts (serves : Pursuing y g c rg) (none_ : NothingDue y) (live : y.live h = some r) (state : r.state = .dormant)
    (predicted : r.prediction none y.now = some d) (above : g.priority < p)
    (below : ∀ x ∈ y.arbiter.queue, x.request.priority ≤ g.priority ∧ x.request.handle.slot ≠ h.slot) (room : y.arbiter.queue.length < 12)
    (bottoms : ∀ x, y.arbiter.stack[3]? = some x → x.handle.slot ≠ g.handle.slot ∧ x.handle.slot ≠ h.slot ∧ y.live x.handle ≠ none)
    (counts : y.arbiter.arrivalCounter < 65534) (apart : h.slot ≠ g.handle.slot) :
    ∃ t, (sentNothing y).pursueRecord h r origin p none = (t, .ok) ∧ ∀ n, t.settle n =
      beamTaken (arrivalCounted (sentNothing y)) g rg (decide (c.stage = .locked)) (requestOf h origin p none) r d := by
  have liveG : y.live g.handle = some rg := by
    rw [← serves.target]
    exact serves.record
  have somewhere : r.prediction none (sentNothing y).now ≠ none := fun lost => nomatch lost.symm.trans predicted
  obtain ⟨b, taken⟩ := enqueue_preempts (v := sentNothing y) (q := requestOf h origin p none) (r := r) (rg := rg) (d := d) serves.grant serves.context
    serves.target liveG live above below bottoms counts apart predicted ⟨rfl, rfl⟩
  have entered := pursueRecord_entered (s := sentNothing y) (h := h) (o := origin) (p := p) state somewhere room
  refine ⟨_, entered.trans (congrArg (·, Answer.ok) taken), fun n => ?_⟩
  exact settle_beamTaken (y := arrivalCounted y) none_ fun x full => (bottoms x full).2.2

/-- A merge that brings an entry above the grant gives it the beam. -/
theorem merged_preempts {l : List QueueEntry} {w : QueueEntry} (serves : Pursuing y g c rg) (none_ : NothingDue y) (queue : y.arbiter.queue = l)
    (distinct : QueueDistinct l) (waits : w ∈ l)
    (best : ∀ x ∈ l, x.request.priority < w.request.priority ∨ x.request.priority = w.request.priority ∧ w.arrival ≤ x.arrival)
    (above : g.priority < w.request.priority) (apart : w.request.handle.slot ≠ g.handle.slot)
    (bottoms : ∀ x, y.arbiter.stack[3]? = some x → x.handle.slot ≠ g.handle.slot ∧ x.handle.slot ≠ w.request.handle.slot ∧ y.live x.handle ≠ none)
    (counts : y.arbiter.arrivalCounter < 65535) (liveW : y.live w.request.handle = some rw_)
    (predicted : rw_.prediction w.request.aim y.now = some d) (n : Nat) :
    (sentNothing y).preemptionTest.settle n = beamTaken ((sentNothing y).setQueue (withoutQueued w.request.handle.slot l)) g rg (decide (c.stage = .locked))
      w.request rw_ d := by
  subst queue
  have liveG : y.live g.handle = some rg := by
    rw [← serves.target]
    exact serves.record
  have tested : (sentNothing y).preemptionTest = (sentNothing y).preempt g w :=
    preemptionTest_above (s := sentNothing y) serves.grant distinct waits best above
  have slotW : (disposed (beamLeft ((sentNothing y).setQueue (withoutQueued w.request.handle.slot y.arbiter.queue))) g rg
      (decide (c.stage = .locked))).slotAt w.request.handle.slot = y.slotAt w.request.handle.slot :=
    slotAt_disposed_other apart fun x full => (bottoms x full).2.1
  obtain ⟨b, taken⟩ := preempt_taken (s := sentNothing y) (e := w) (d := d) serves.context serves.target liveG (Nat.ne_of_lt counts)
    (fun x full => (bottoms x full).1) ((live_of_slotAt slotW).trans liveW) predicted
  have slewed := slewOn_disposed (y := (sentNothing y).setQueue (withoutQueued w.request.handle.slot y.arbiter.queue)) (g := g) (rg := rg)
    (q := w.request) (r := rw_) (d := d) (locked := decide (c.stage = .locked)) ⟨rfl, rfl⟩ fun x full => (bottoms x full).2.2
  rw [tested, taken]
  refine (congrArg (fun t : State => (t.setPassWanted b).settle n) slewed).trans ?_
  exact settle_beamTaken (y := y.setQueue (withoutQueued w.request.handle.slot y.arbiter.queue)) (b := b) none_ fun x full => (bottoms x full).2.2

/-! ### FIND -/

theorem findRecord_parked (parked : s.arbiter.runMode = .parked) : s.findRecord h r = (s, .parked) := if_pos parked

theorem findRecord_running (running : s.arbiter.runMode = .running) :
    s.findRecord h r = s.pursueRecord h r .pendant s.arbiter.priorities.pendant none :=
  if_neg (by rw [running]; exact nofun)

theorem PendantHolds.exec_find (holds : PendantHolds s o i r) {t u : State} (found : (atRequest s).findRecord (s.handleOf i) r = (t, a))
    (left : t.settle s.arbiter.queue.length = u) : exec (.find [o]) s = .next (reportedBy u 3 a (some o) none) := by
  refine Machine.exec_find.trans (pendantEvent_leaves (w := { after := t, answer := a, offset := some o, mark := none }) holds.up ?_ left)
  exact (onOffset_ok (holds.lookup true)).trans (by rw [found])

/-- A FIND that changes nothing. -/
theorem PendantHolds.exec_find_unchanged (holds : PendantHolds s o i r) (found : (atRequest s).findRecord (s.handleOf i) r = (atRequest s, a)) :
    exec (.find [o]) s = .next (reportedBy (atRequest s) 3 a (some o) none) := by
  obtain ⟨-, -, -, -, arbiter, scheduler, -⟩ := atRequest_fields (s := s)
  refine holds.exec_find found (settle_calm _ ((congrArg Scheduler.passWanted scheduler).trans holds.calm) ?_)
  exact le_of_eq (congrArg (fun x : Arbiter => x.queue.length) arbiter).symm

theorem PendantHolds.live (holds : PendantHolds s o i r) : s.live (s.handleOf i) = some r :=
  (live_eq_some s).mpr ⟨rfl, holds.record⟩

/-- The part as the request finds it holds what it held. -/
theorem live_atRequest : (atRequest s).live h = s.live h := live_of_slotAt slotAt_atRequest

theorem nothingDue_atRequest (none_ : NothingDue s) : NothingDue (atRequest s) := by
  obtain ⟨-, -, -, -, -, scheduler, -⟩ := atRequest_fields (s := s)
  obtain ⟨calm, due⟩ := none_
  refine ⟨(congrArg Scheduler.passWanted scheduler).trans calm, ?_⟩
  rw [State.dueSlots, scheduler]
  exact due

theorem Pursuing.atRequest (serves : Pursuing s g c r) : Pursuing (atRequest s) g c r := by
  obtain ⟨up, -, -, pursuit, arbiter, scheduler, -⟩ := atRequest_fields (s := s)
  exact ⟨up.trans serves.up, (congrArg Scheduler.passWanted scheduler).trans serves.calm, (congrArg Arbiter.runMode arbiter).trans serves.running,
    (congrArg Arbiter.grant arbiter).trans serves.grant, pursuit.trans serves.context, serves.target, serves.origin,
    live_atRequest.trans serves.record⟩

end Sys2Proof.Machine
end


section
/-! LET-GO, HOLD-ON, HOLD-OFF and DROP (R199, R200): RELEASE, SET of hold and RETIRE, as the station's commands leave the part. -/

namespace Sys2Proof.Machine

variable {s t y : State} {o slot gen : Byte} {i : Fin 48} {r r' : Record} {a : Answer} {h : Handle} {g : Request} {c : Context} {e : QueueEntry}

/-! ### A command of the station and a request of the pendant -/

theorem atRise_withLink (j : Instr) : s.atRise j = withLink (s.atRise j).link (sentNothing s) := rfl

/-- What a command's overlaid state answers, with the link put back. -/
theorem respond_withLink (x : StationLink) (w : Response) (link : t.link = s.link) :
    ((withLink x t).respond w).link.response = some w ∧ { (withLink x t).respond w with link := s.link } = t := by
  refine ⟨rfl, ?_⟩
  rw [← link]
  rfl

theorem PendantHolds.exec_takes (holds : PendantHolds s o i r) {j : Instr} {kind : Byte} {take : State → Handle → Record → State × Answer}
    (runs : exec j s = s.pendantEvent kind true fun s => s.onOffset o true (take s)) :
    exec j s = .next (reportedBy ((take (atRequest s) (s.handleOf i) r).1.settle s.arbiter.queue.length) kind
      (take (atRequest s) (s.handleOf i) r).2 (some o) none) := by
  rw [runs]
  exact pendantEvent_leaves (take := fun s => s.onOffset o true (take s)) holds.up (onOffset_ok (holds.lookup true)) rfl

/-! ### RELEASE and LET-GO -/

/-- RELEASE leaves the part, but for the link, as the release of the record does when nothing was sent. -/
theorem release_leaves (up : s.resetnLow = false) (ok : s.lookup slot gen = .ok (h, r)) :
    ∃ w, exec (.release slot gen) s = .next w ∧ w.link.response = some (noPayload ((sentNothing s).releaseRecord h r).2)
      ∧ { w with link := (sentNothing s).link } = ((sentNothing s).releaseRecord h r).1.settle s.arbiter.queue.length := by
  have overlay := withLink_overlay (s.atRise (.release slot gen)).link
  have link : (((sentNothing s).releaseRecord h r).1.settle s.arbiter.queue.length).link = (sentNothing s).link :=
    ((releaseRecord_setup (sentNothing s) h r).trans (settle_setup _ _)).link
  have taken : settled (takeRelease slot gen) (s.atRise (.release slot gen)) = (withLink (s.atRise (.release slot gen)).link
      (((sentNothing s).releaseRecord h r).1.settle s.arbiter.queue.length), noPayload ((sentNothing s).releaseRecord h r).2) := by
    rw [settled, takeRelease_atRise ok, atRise_withLink, overlay.releaseRecord]
    exact congrArg (·, _) (overlay.settle _ _)
  obtain ⟨response, left⟩ := respond_withLink (s.atRise (.release slot gen)).link (noPayload ((sentNothing s).releaseRecord h r).2) link
  refine ⟨_, ?_, response, left⟩
  rw [exec_release, station_high s _ _ up, taken]

theorem reportEnd_plain {q : Request} (plain : q.origin = .station ∨ q.origin = .pendant) (x : EndOutcome) : s.reportEnd q x = s := by
  rcases plain with origin | origin
  · rw [State.reportEnd, origin]
  · rw [State.reportEnd, origin]

/-- A plain request's release from the queue, where no revisit is DUE. -/
theorem released_queued (live : s.live h = some r) (state : r.state = .queued) (queued : s.queuedAt h.slot = some e)
    (plain : e.request.origin = .station ∨ e.request.origin = .pendant) (none_ : NothingDue s) :
    (s.releaseRecord h r).2 = .ok ∧ ∀ n, (s.releaseRecord h r).1.settle n
      = (s.withRecord h (releasedAs r)).setQueue (withoutQueued h.slot s.arbiter.queue) := by
  have live' : (s.setQueue (withoutQueued h.slot s.arbiter.queue)).live h = some r := live
  obtain ⟨b, dormant⟩ := toDormant_live live' .released
  rw [releaseRecord_queued state queued, reportEnd_plain plain, dormant]
  refine ⟨rfl, fun n => ?_⟩
  exact settled_calm (t := (s.withRecord h (releasedAs r)).setQueue (withoutQueued h.slot s.arbiter.queue)) none_.2 none_.1 b

/-- A plain request's release from the beam, where nothing else waits. -/
theorem released_active {st : Stage} (serves : Pursuing y g c r) (live : y.live h = some r) (state : r.state = .active st)
    (plain : g.origin = .station ∨ g.origin = .pendant) (alone : NoOtherRequest y) :
    ((sentNothing y).releaseRecord h r).2 = .ok ∧ ∀ n, ((sentNothing y).releaseRecord h r).1.settle n
      = beamFreed ((sentNothing y).withRecord h (releasedAs r)) := by
  obtain ⟨none_, queue, stack⟩ := alone
  have live' : (beamLeft (sentNothing y)).live h = some r := live
  obtain ⟨b, dormant⟩ := toDormant_live live' .released
  have freed := select_none (s := ((beamLeft (sentNothing y)).withRecord h (releasedAs r)).setPassWanted b) rfl serves.running queue stack
  rw [releaseRecord_active (s := sentNothing y) state serves.grant, endPursuit_left (s := sentNothing y) serves.context, reportEnd_plain plain, dormant]
  refine ⟨rfl, fun n => ?_⟩
  refine (congrArg (fun t : State => t.settle n) freed).trans ?_
  exact settled_calm (t := beamFreed ((sentNothing y).withRecord h (releasedAs r))) none_.2 none_.1 b

/-! ### RETIRE and DROP -/

theorem Overlay.retireRest {φ : State → State} (ov : Overlay φ) (active : Bool) (n : Nat) : retireRest active n (φ t) = φ (retireRest active n t) := by
  rw [Machine.retireRest, Machine.retireRest, ov.select, ← apply_ite φ, ov.settle]

/-- RETIRE vacates the slot whatever record it holds. -/
theorem retiredFrom_withRecord (x : StationLink) : retiredFrom (withLink x (s.withRecord h r)) h gen = withLink x (retiredFrom s h gen) := by
  have slot : (((withLink x (s.withRecord h r)).removeEntry h.slot).setSlot h.slot { generation := gen + 1, record := none })
      = withLink x ((s.removeEntry h.slot).setSlot h.slot { generation := gen + 1, record := none }) := by
    simp [State.withRecord, State.setSlot, State.removeEntry, State.setEntries, withLink]
  rw [retiredFrom, retiredFrom, slot]
  rfl

/-- What claims the beam is taken off it whatever the record is, but for its state. -/
theorem unclaim_withRecord (x : StationLink) (same : r'.state = r.state) :
    (withLink x (s.withRecord h r')).unclaim h r' = withLink x ((s.unclaim h r).withRecord h r') := by
  have told (u : State) (q : Option Request) :
      (withLink x (u.withRecord h r')).reportRemoval q = withLink x ((u.reportRemoval q).withRecord h r') := by
    cases q with
    | none => rfl
    | some q =>
      rw [State.reportRemoval, State.reportRemoval]
      split <;> rfl
  rw [State.unclaim, State.unclaim, same]
  cases r.state with
  | dormant => rfl
  | queued => exact told (s.setQueue (withoutQueued h.slot s.arbiter.queue)) _
  | suspended => exact told (s.setStack (withoutStacked h.slot s.arbiter.stack)) _
  | active st =>
    have ended : (withLink x (s.withRecord h r')).endPursuit false = withLink x ((s.endPursuit false).withRecord h r') := by
      rw [State.endPursuit, State.endPursuit, show (withLink x (s.withRecord h r')).pursuit = s.pursuit from rfl]
      cases s.pursuit with
      | none => rfl
      | some c => rfl
    dsimp only
    rw [ended]
    exact told ((s.endPursuit false).setGrant none) _

theorem retireRecord_rest (ne : h.slot ≠ 0) (generation : (s.slotAt h.slot).generation = gen) (n : Nat) :
    (s.retireRecord h r).2 = .ok ∧ (s.retireRecord h r).1.settle n = retireRest r.isActive n (retiredFrom (s.unclaim h r) h gen) := by
  have generation' : ((s.unclaim h r).slotAt h.slot).generation = gen := (unclaim_setup.records h.slot).1.trans generation
  rw [retireRecord_eq s ne, vacated_eq generation']
  exact ⟨rfl, rfl⟩

theorem isActive_of_state (same : r'.state = r.state) : r'.isActive = r.isActive := by rw [Record.isActive, Record.isActive, same]

/-- RETIRE leaves the part, but for the link, as the end of the record's life does when nothing was sent, whatever else the record is. -/
theorem retire_leaves (up : s.resetnLow = false) (ok : (s.withRecord h r').lookupOwned slot gen = .ok (h, r')) (ne : h.slot ≠ 0)
    (same : r'.state = r.state) (generation : (s.slotAt h.slot).generation = gen) :
    ∃ w, exec (.retire slot gen) (s.withRecord h r') = .next w ∧ w.link.response = some (noPayload .ok)
      ∧ { w with link := (sentNothing s).link } = ((sentNothing s).retireRecord h r).1.settle s.arbiter.queue.length := by
  have overlay := withLink_overlay ((s.withRecord h r').atRise (.retire slot gen)).link
  have gone : retiredFrom (((s.withRecord h r').atRise (.retire slot gen)).unclaim h r') h gen
      = withLink ((s.withRecord h r').atRise (.retire slot gen)).link (retiredFrom ((sentNothing s).unclaim h r) h gen) := by
    have risen : (s.withRecord h r').atRise (.retire slot gen)
        = withLink ((s.withRecord h r').atRise (.retire slot gen)).link ((sentNothing s).withRecord h r') := rfl
    generalize ((s.withRecord h r').atRise (.retire slot gen)).link = x at risen ⊢
    rw [risen, unclaim_withRecord x same, retiredFrom_withRecord]
  obtain ⟨-, left⟩ := retireRecord_rest (s := sentNothing s) (r := r) ne generation s.arbiter.queue.length
  have link : (retireRest r.isActive s.arbiter.queue.length (retiredFrom ((sentNothing s).unclaim h r) h gen)).link = (sentNothing s).link :=
    (retireRest_setup (t := retiredFrom ((sentNothing s).unclaim h r) h gen) _ _).link.trans unclaim_setup.link
  obtain ⟨response, rest⟩ := respond_withLink ((s.withRecord h r').atRise (.retire slot gen)).link (noPayload .ok) link
  refine ⟨_, ?_, response, rest.trans left.symm⟩
  rw [retire_takes (s := s.withRecord h r') up ok ne, gone, isActive_of_state same, overlay.retireRest]
  rfl

end Sys2Proof.Machine
end


section
/-! The pendant's requests as whole events (R84, R86, R88 to R92, R199, R200). -/

namespace Sys2Proof.Machine

variable {s : State} {o : Byte} {i : Fin 48} {r rg rw_ : Record} {a : Answer} {g : Request} {c : Context} {d : Direction} {e w : QueueEntry}

/-! ### FIND -/

section
variable (holds : PendantHolds s o i r) (running : s.arbiter.runMode = .running)
include holds running

omit holds in
/-- FIND is PURSUE of the record under PENDANT origin. -/
theorem findRecord_eq : (atRequest s).findRecord (s.handleOf i) r
    = (atRequest s).pursueRecord (s.handleOf i) r .pendant s.arbiter.priorities.pendant none := by
  obtain ⟨-, -, -, -, arbiter, -⟩ := atRequest_fields (s := s)
  rw [findRecord_running (by rw [arbiter]; exact running), arbiter]

theorem PendantHolds.find_unchanged (pursued : (atRequest s).pursueRecord (s.handleOf i) r .pendant s.arbiter.priorities.pendant none = (atRequest s, a)) :
    exec (.find [o]) s = .next (reportedBy (atRequest s) 3 a (some o) none) :=
  holds.exec_find_unchanged ((findRecord_eq running).trans pursued)

theorem PendantHolds.find_noAim (state : r.state = .dormant) (nowhere : r.prediction none s.time.count = none) :
    exec (.find [o]) s = .next (reportedBy (atRequest s) 3 .noAim (some o) none) := by
  obtain ⟨-, -, -, -, -, -, time, -⟩ := atRequest_fields (s := s)
  exact holds.find_unchanged running (pursueRecord_noAim state (by rw [State.now, time]; exact nowhere))

theorem PendantHolds.find_full (state : r.state = .dormant) (somewhere : r.prediction none s.time.count ≠ none) (full : 12 ≤ s.arbiter.queue.length) :
    exec (.find [o]) s = .next (reportedBy (atRequest s) 3 .full (some o) none) := by
  obtain ⟨-, -, -, -, arbiter, -, time, -⟩ := atRequest_fields (s := s)
  exact holds.find_unchanged running (pursueRecord_full state (by rw [State.now, time]; exact somewhere) (by rw [arbiter]; exact full))

theorem PendantHolds.find_granted (state : r.state = .dormant) (predicted : r.prediction none s.time.count = some d) (free : s.arbiter.grant = none)
    (alone : NoOtherRequest s) (counts : s.arbiter.arrivalCounter < 65535) : exec (.find [o]) s = .next (reportedBy
      (beamGranted ((atRequest s).withRecord (s.handleOf i) { r with state := .active .slewing })
        (requestOf (s.handleOf i) .pendant s.arbiter.priorities.pendant none) d) 3 .ok (some o) none) := by
  obtain ⟨-, -, -, -, arbiter, -, time, -⟩ := atRequest_fields (s := s)
  have alone' : NoOtherRequest (atRequest s) := ⟨nothingDue_atRequest alone.1, by rw [arbiter]; exact alone.2⟩
  obtain ⟨t, pursued, left⟩ := pursue_granted (y := heard s) (origin := .pendant) (p := s.arbiter.priorities.pendant)
    (live_atRequest.trans holds.live) state (by rw [← time] at predicted; exact predicted) (by rw [← arbiter] at running; exact running)
    (by rw [← arbiter] at free; exact free) alone' (by rw [← arbiter] at counts; exact counts)
  exact holds.exec_find ((findRecord_eq running).trans pursued) (left _)

theorem PendantHolds.find_queued (state : r.state = .dormant) (somewhere : r.prediction none s.time.count ≠ none) (granted : s.arbiter.grant = some g)
    (under : s.arbiter.priorities.pendant ≤ g.priority) (below : ∀ e ∈ s.arbiter.queue, e.request.priority ≤ g.priority)
    (room : s.arbiter.queue.length < 12) (counts : s.arbiter.arrivalCounter < 65535) : exec (.find [o]) s = .next (reportedBy
      { (arrivalCounted (atRequest s)).withRecord (s.handleOf i) { r with state := .queued } with arbiter :=
        { (arrivalCounted (atRequest s)).arbiter with queue := s.arbiter.queue ++
          [{ request := requestOf (s.handleOf i) .pendant s.arbiter.priorities.pendant none, arrival := s.arbiter.arrivalCounter }] } }
      3 .ok (some o) none) := by
  obtain ⟨-, -, -, -, arbiter, scheduler, time, -⟩ := atRequest_fields (s := s)
  have queued := pursue_queued (s := atRequest s) (origin := .pendant) (p := s.arbiter.priorities.pendant) (live_atRequest.trans holds.live) state
    (by rw [State.now, time]; exact somewhere) (by rw [arbiter]; exact granted) under (by rw [arbiter]; exact below) (by rw [arbiter]; exact room)
    (by rw [arbiter]; exact counts)
  rw [arbiter] at queued
  refine holds.exec_find ((findRecord_eq running).trans queued) (settle_calm _ ((congrArg Scheduler.passWanted scheduler).trans holds.calm) ?_)
  simp

theorem PendantHolds.find_preempts (state : r.state = .dormant) (predicted : r.prediction none s.time.count = some d) (serves : Pursuing s g c rg)
    (none_ : NothingDue s) (above : g.priority < s.arbiter.priorities.pendant)
    (below : ∀ e ∈ s.arbiter.queue, e.request.priority ≤ g.priority ∧ e.request.handle.slot ≠ i) (room : s.arbiter.queue.length < 12)
    (bottoms : ∀ x, s.arbiter.stack[3]? = some x → x.handle.slot ≠ g.handle.slot ∧ x.handle.slot ≠ i ∧ s.live x.handle ≠ none)
    (counts : s.arbiter.arrivalCounter < 65534) (apart : i ≠ g.handle.slot) : exec (.find [o]) s = .next (reportedBy
      (beamTaken (arrivalCounted (atRequest s)) g rg (decide (c.stage = .locked))
        (requestOf (s.handleOf i) .pendant s.arbiter.priorities.pendant none) r d) 3 .ok (some o) none) := by
  obtain ⟨-, -, -, -, arbiter, scheduler, time, -⟩ := atRequest_fields (s := s)
  have bottoms' : ∀ x, (atRequest s).arbiter.stack[3]? = some x →
      x.handle.slot ≠ g.handle.slot ∧ x.handle.slot ≠ (s.handleOf i).slot ∧ (atRequest s).live x.handle ≠ none := by
    rw [arbiter]
    exact fun x full => ⟨(bottoms x full).1, (bottoms x full).2.1, by rw [live_atRequest]; exact (bottoms x full).2.2⟩
  have serves' : Pursuing (atRequest s) g c rg := serves.atRequest
  obtain ⟨t, pursued, left⟩ := pursue_preempts (y := atRequest s) (origin := .pendant) serves' (nothingDue_atRequest none_)
    (live_atRequest.trans holds.live) state (by rw [← time] at predicted; exact predicted) above (by rw [arbiter]; exact below)
    (by rw [arbiter]; exact room) bottoms' (by rw [arbiter]; exact counts) apart
  exact holds.exec_find ((findRecord_eq running).trans pursued) (left _)

theorem PendantHolds.find_suspended (state : r.state = .suspended) : exec (.find [o]) s = .next (reportedBy
    ((atRequest s).setStack (s.arbiter.stack.map fun x => if x.handle.slot = i then x.raise s.arbiter.priorities.pendant none else x))
      3 .already (some o) none) := by
  obtain ⟨-, -, -, -, arbiter, scheduler, -⟩ := atRequest_fields (s := s)
  have raised := pursueRecord_suspended (s := atRequest s) (h := s.handleOf i) (o := .pendant) (p := s.arbiter.priorities.pendant) (aim := none) state
  rw [arbiter] at raised
  refine holds.exec_find ((findRecord_eq running).trans raised) (settle_calm _ ((congrArg Scheduler.passWanted scheduler).trans holds.calm) ?_)
  exact le_of_eq (congrArg (fun x : Arbiter => x.queue.length) arbiter).symm

/-- The queue with the entry of a slot merged with a request of a priority. -/
def mergedQueue (l : List QueueEntry) (i : Fin 48) (p : Nat) : List QueueEntry := l.map fun e => if e.request.handle.slot = i then e.merge p none else e

omit holds running in
theorem length_mergedQueue (l : List QueueEntry) (p : Nat) : (mergedQueue l i p).length = l.length := by simp [mergedQueue]

omit holds in
theorem findRecord_merged (state : r.state = .queued) : (atRequest s).findRecord (s.handleOf i) r =
    (((atRequest s).setQueue (mergedQueue s.arbiter.queue i s.arbiter.priorities.pendant)).preemptionTest, .already) := by
  obtain ⟨-, -, -, -, arbiter, -⟩ := atRequest_fields (s := s)
  have merged := pursueRecord_queued (s := atRequest s) (h := s.handleOf i) (o := .pendant) (p := s.arbiter.priorities.pendant) (aim := none) state
  rw [arbiter] at merged
  exact (findRecord_eq running).trans merged

theorem PendantHolds.find_merged_below (state : r.state = .queued) (granted : s.arbiter.grant = some g)
    (below : ∀ e ∈ mergedQueue s.arbiter.queue i s.arbiter.priorities.pendant, e.request.priority ≤ g.priority) : exec (.find [o]) s = .next (reportedBy
      ((atRequest s).setQueue (mergedQueue s.arbiter.queue i s.arbiter.priorities.pendant)) 3 .already (some o) none) := by
  obtain ⟨-, -, -, -, arbiter, scheduler, -⟩ := atRequest_fields (s := s)
  have granted' : (atRequest s).arbiter.grant = some g := by rw [arbiter]; exact granted
  have stays := preemptionTest_below (s := (atRequest s).setQueue (mergedQueue s.arbiter.queue i s.arbiter.priorities.pendant)) granted' below
  refine holds.exec_find ((findRecord_merged running state).trans (congrArg (·, Answer.already) stays))
    (settle_calm _ ((congrArg Scheduler.passWanted scheduler).trans holds.calm) ?_)
  exact le_of_eq (length_mergedQueue s.arbiter.queue _).symm

theorem PendantHolds.find_merged_above (state : r.state = .queued) (serves : Pursuing s g c rg) (none_ : NothingDue s)
    (distinct : QueueDistinct (mergedQueue s.arbiter.queue i s.arbiter.priorities.pendant))
    (waits : w ∈ mergedQueue s.arbiter.queue i s.arbiter.priorities.pendant)
    (best : ∀ x ∈ mergedQueue s.arbiter.queue i s.arbiter.priorities.pendant,
      x.request.priority < w.request.priority ∨ x.request.priority = w.request.priority ∧ w.arrival ≤ x.arrival)
    (above : g.priority < w.request.priority) (apart : w.request.handle.slot ≠ g.handle.slot)
    (bottoms : ∀ x, s.arbiter.stack[3]? = some x → x.handle.slot ≠ g.handle.slot ∧ x.handle.slot ≠ w.request.handle.slot ∧ s.live x.handle ≠ none)
    (counts : s.arbiter.arrivalCounter < 65535) (liveW : s.live w.request.handle = some rw_)
    (predicted : rw_.prediction w.request.aim s.time.count = some d) : exec (.find [o]) s = .next (reportedBy
      (beamTaken ((atRequest s).setQueue (withoutQueued w.request.handle.slot (mergedQueue s.arbiter.queue i s.arbiter.priorities.pendant))) g rg
        (decide (c.stage = .locked)) w.request rw_ d) 3 .already (some o) none) := by
  obtain ⟨-, -, -, -, arbiter, scheduler, time, -⟩ := atRequest_fields (s := s)
  have bottoms' : ∀ x, (atRequest s).arbiter.stack[3]? = some x →
      x.handle.slot ≠ g.handle.slot ∧ x.handle.slot ≠ w.request.handle.slot ∧ (atRequest s).live x.handle ≠ none := by
    rw [arbiter]
    exact fun x full => ⟨(bottoms x full).1, (bottoms x full).2.1, by rw [live_atRequest]; exact (bottoms x full).2.2⟩
  obtain ⟨up', calm', running', grant', context', target', origin', record'⟩ := serves.atRequest
  have serves' : Pursuing ((atRequest s).setQueue (mergedQueue s.arbiter.queue i s.arbiter.priorities.pendant)) g c rg :=
    ⟨up', calm', running', grant', context', target', origin', record'⟩
  refine holds.exec_find (findRecord_merged running state) ?_
  exact merged_preempts (y := (atRequest s).setQueue (mergedQueue s.arbiter.queue i s.arbiter.priorities.pendant)) serves' (nothingDue_atRequest none_) rfl
    distinct waits best above apart bottoms' (by rw [← arbiter] at counts; exact counts) (live_atRequest.trans liveW)
    (by rw [← time] at predicted; exact predicted) _

end

/-! ### LET-GO -/

section
variable (holds : PendantHolds s o i r)
include holds

theorem PendantHolds.exec_letGo : exec (.letGo [o]) s = .next (reportedBy
    (((atRequest s).releaseRecord (s.handleOf i) r).1.settle s.arbiter.queue.length) 4 ((atRequest s).releaseRecord (s.handleOf i) r).2 (some o) none) :=
  holds.exec_takes (take := State.releaseRecord) Machine.exec_letGo

theorem PendantHolds.lookup_heard : (heard s).lookup (BitVec.ofNat 8 i.val) (s.handleOf i).generation = .ok (s.handleOf i, r) := by
  have named : i.val = (BitVec.ofNat 8 i.val).toNat := by
    rw [BitVec.toNat_ofNat]
    omega
  exact lookup_named named (recordAt_atRequest.trans holds.record) (congrArg Slot.generation slotAt_atRequest)

theorem PendantHolds.letGo_releases : ∃ w, exec (.release (BitVec.ofNat 8 i.val) (s.handleOf i).generation) (heard s) = .next w
    ∧ ∃ a, w.link.response = some (noPayload a)
      ∧ exec (.letGo [o]) s = .next (reportedBy { w with link := (atRequest s).link } 4 a (some o) none) := by
  obtain ⟨up, -, -, -, arbiter, -⟩ := atRequest_fields (s := s)
  obtain ⟨w, released, response, left⟩ := release_leaves (s := heard s) (up.trans holds.up) holds.lookup_heard
  have queue : (heard s).arbiter.queue.length = s.arbiter.queue.length := congrArg (fun x : Arbiter => x.queue.length) arbiter
  rw [queue] at left
  refine ⟨w, released, _, response, holds.exec_letGo.trans ?_⟩
  exact congrArg (fun t => Host.Outcome.next (reportedBy t 4 _ (some o) none)) left.symm

theorem PendantHolds.letGo_dormant (state : r.state = .dormant) :
    exec (.letGo [o]) s = .next (reportedBy (atRequest s) 4 .already (some o) none) := by
  obtain ⟨-, -, -, -, arbiter, scheduler, -⟩ := atRequest_fields (s := s)
  have calm := settle_calm (atRequest s) ((congrArg Scheduler.passWanted scheduler).trans holds.calm)
    (le_of_eq (congrArg (fun x : Arbiter => x.queue.length) arbiter).symm)
  rw [holds.exec_letGo, releaseRecord_dormant state, calm]

theorem PendantHolds.letGo_queued (state : r.state = .queued) (queued : s.queuedAt i = some e)
    (plain : e.request.origin = .station ∨ e.request.origin = .pendant) (none_ : NothingDue s) : exec (.letGo [o]) s = .next (reportedBy
      (((atRequest s).withRecord (s.handleOf i) (releasedAs r)).setQueue (withoutQueued i s.arbiter.queue)) 4 .ok (some o) none) := by
  obtain ⟨-, -, -, -, arbiter, -⟩ := atRequest_fields (s := s)
  have queued' : (atRequest s).queuedAt (s.handleOf i).slot = some e := by
    rw [State.queuedAt, arbiter]
    exact queued
  obtain ⟨answer, left⟩ := released_queued (live_atRequest.trans holds.live) state queued' plain (nothingDue_atRequest none_)
  rw [arbiter] at left
  rw [holds.exec_letGo, answer, left]
  rfl

theorem PendantHolds.letGo_active {st : Stage} (state : r.state = .active st) (serves : Pursuing s g c r) (alone : NoOtherRequest s)
    (plain : g.origin = .station ∨ g.origin = .pendant) : exec (.letGo [o]) s = .next (reportedBy
      (beamFreed ((atRequest s).withRecord (s.handleOf i) (releasedAs r))) 4 .ok (some o) none) := by
  obtain ⟨-, -, -, -, arbiter, -⟩ := atRequest_fields (s := s)
  have alone' : NoOtherRequest (atRequest s) := ⟨nothingDue_atRequest alone.1, by rw [arbiter]; exact alone.2⟩
  obtain ⟨answer, left⟩ := released_active (y := atRequest s) serves.atRequest (live_atRequest.trans holds.live) state plain alone'
  have answer' : ((atRequest s).releaseRecord (s.handleOf i) r).2 = .ok := answer
  have left' : ((atRequest s).releaseRecord (s.handleOf i) r).1.settle s.arbiter.queue.length
    = beamFreed ((atRequest s).withRecord (s.handleOf i) (releasedAs r)) := left _
  rw [holds.exec_letGo, answer', left']

/-! ### HOLD-ON and HOLD-OFF -/

theorem PendantHolds.setHold (v : Bool) : (atRequest s).setHoldOf (s.handleOf i) r v =
    if r.hold = v then (atRequest s, .already) else ((atRequest s).withRecord (s.handleOf i) { r with hold := v }, .ok) :=
  setHoldOf_live (live_atRequest.trans holds.live) v

theorem PendantHolds.settle_held (x : Record) : (atRequest s).settle s.arbiter.queue.length = atRequest s
    ∧ ((atRequest s).withRecord (s.handleOf i) x).settle s.arbiter.queue.length = (atRequest s).withRecord (s.handleOf i) x := by
  obtain ⟨-, -, -, -, arbiter, scheduler, -⟩ := atRequest_fields (s := s)
  have calm := (congrArg Scheduler.passWanted scheduler).trans holds.calm
  have longer := le_of_eq (congrArg (fun x : Arbiter => x.queue.length) arbiter).symm
  exact ⟨settle_calm _ calm longer, settle_calm _ calm longer⟩

theorem PendantHolds.holdOn : exec (.holdOn [o]) s = .next (if r.hold then reportedBy (atRequest s) 5 .already (some o) none
    else reportedBy ((atRequest s).withRecord (s.handleOf i) { r with hold := true }) 5 .ok (some o) none) := by
  obtain ⟨same, written⟩ := holds.settle_held { r with hold := true }
  rw [holds.exec_takes (take := fun s h r => s.setHoldOf h r true) exec_holdOn, holds.setHold]
  cases hold : r.hold with
  | true => simp [same]
  | false => simp [written]

theorem PendantHolds.holdOff : exec (.holdOff [o]) s = .next (if r.hold
    then reportedBy ((atRequest s).withRecord (s.handleOf i) { r with hold := false }) 6 .ok (some o) none
    else reportedBy (atRequest s) 6 .already (some o) none) := by
  obtain ⟨same, written⟩ := holds.settle_held { r with hold := false }
  rw [holds.exec_takes (take := fun s h r => s.setHoldOf h r false) exec_holdOff, holds.setHold]
  cases hold : r.hold with
  | true => simp [written]
  | false => simp [same]

/-! ### DROP -/

theorem PendantHolds.exec_drop : exec (.drop [o]) s = .next (reportedBy
    (((atRequest s).retireRecord (s.handleOf i) r).1.settle s.arbiter.queue.length) 8 ((atRequest s).retireRecord (s.handleOf i) r).2 (some o) none) :=
  holds.exec_takes (take := State.retireRecord) Machine.exec_drop

theorem PendantHolds.drop_retires (ne : i ≠ 0) : ∃ w, exec (.retire (BitVec.ofNat 8 i.val) (s.handleOf i).generation)
      ((heard s).withRecord (s.handleOf i) { r with owner := .station }) = .next w ∧ w.link.response = some (noPayload .ok)
    ∧ exec (.drop [o]) s = .next (reportedBy { w with link := (atRequest s).link } 8 .ok (some o) none) := by
  obtain ⟨up, -, -, -, arbiter, -⟩ := atRequest_fields (s := s)
  have named : i.val = (BitVec.ofNat 8 i.val).toNat := by
    rw [BitVec.toNat_ofNat]
    omega
  have slot : ((heard s).withRecord (s.handleOf i) { r with owner := .station }).slotAt i
      = { generation := (s.handleOf i).generation, record := some { r with owner := .station } } := slotAt_setSlot_self (heard s) i _
  have found := lookup_named (s := (heard s).withRecord (s.handleOf i) { r with owner := .station }) named (congrArg Slot.record slot)
    (congrArg Slot.generation slot)
  have owned : ((heard s).withRecord (s.handleOf i) { r with owner := .station }).lookupOwned (BitVec.ofNat 8 i.val) (s.handleOf i).generation
      = .ok (s.handleOf i, { r with owner := .station }) := by
    rw [State.lookupOwned, found]
    rfl
  have generation : ((heard s).slotAt (s.handleOf i).slot).generation = (s.handleOf i).generation := congrArg Slot.generation slotAt_atRequest
  obtain ⟨w, retired, response, left⟩ := retire_leaves (r := r) (s := heard s) (up.trans holds.up) owned ne rfl generation
  obtain ⟨answer, -⟩ := retireRecord_rest (s := atRequest s) (r := r) ne generation s.arbiter.queue.length
  have queue : (heard s).arbiter.queue.length = s.arbiter.queue.length := congrArg (fun x : Arbiter => x.queue.length) arbiter
  rw [queue] at left
  refine ⟨w, retired, response, holds.exec_drop.trans ?_⟩
  rw [answer]
  exact congrArg (fun t => Host.Outcome.next (reportedBy t 8 .ok (some o) none)) left.symm

theorem PendantHolds.drop_dormant (ne : i ≠ 0) (state : r.state = .dormant) : exec (.drop [o]) s = .next (reportedBy
    (retiredFrom (atRequest s) (s.handleOf i) (s.slotAt i).generation) 8 .ok (some o) none) := by
  obtain ⟨-, -, -, -, arbiter, scheduler, -⟩ := atRequest_fields (s := s)
  have retired := retireRecord_dormant (s := atRequest s) (h := s.handleOf i) (gen := (s.slotAt i).generation) ne state
    (congrArg Slot.generation slotAt_atRequest)
  rw [holds.exec_drop, retired]
  refine congrArg (fun t => Host.Outcome.next (reportedBy t 8 .ok (some o) none)) (settle_calm _ ?_ ?_)
  · exact (congrArg Scheduler.passWanted scheduler).trans holds.calm
  · exact le_of_eq (congrArg (fun x : Arbiter => x.queue.length) arbiter).symm

end

end Sys2Proof.Machine

open Sys2Proof Sys2Proof.Machine

/-- Settles O56: FIND by the record's state and the grant, LET-GO and DROP by the commands they are, HOLD-ON and HOLD-OFF by what hold was. -/
theorem pendantRequestsAct : Obligations.PendantRequestsAct := by
  unfold Obligations.PendantRequestsAct
  intro s o i r holds u h slot p q released raised merged counted asStation
  obtain ⟨-, -, -, -, arbiter, scheduler, time, -⟩ := atRequest_fields (s := s)
  have countedIs : counted = arrivalCounted (atRequest s) := by
    rw [arrivalCounted, arbiter]
    rfl
  have mergedIs : merged = mergedQueue s.arbiter.queue i p := by
    simp only [merged, mergedQueue, merge_eq, raise_eq]
    rfl
  refine ⟨fun parked => holds.exec_find_unchanged (findRecord_parked (by rw [arbiter]; exact parked)),
    fun running => ⟨fun st state => holds.find_unchanged running (pursueRecord_active state), holds.find_noAim running, holds.find_full running,
      fun d state predicted free alone counts => holds.find_granted running state predicted free alone counts,
      fun g state somewhere granted under below room counts => ?_,
      fun g c rg d state predicted serves none_ above below room bottoms counts apart => ?_, fun state => ?_, fun g state granted below => ?_,
      fun g c rg w rw_ d state serves none_ distinct waits best above apart bottoms counts liveW predicted => ?_⟩,
    holds.letGo_releases, holds.letGo_dormant, fun e state queued plain none_ => holds.letGo_queued state queued plain none_,
    fun st g c state serves _ alone plain => holds.letGo_active state serves alone plain, holds.holdOn, holds.holdOff, holds.drop_retires,
    holds.drop_dormant⟩
  · rw [countedIs]
    exact holds.find_queued running state somewhere granted under below room counts
  · rw [countedIs]
    exact holds.find_preempts running state predicted serves none_ above below room bottoms counts apart
  · have kept := holds.find_suspended running state
    simp only [raise_eq] at kept
    exact kept
  · rw [mergedIs] at below ⊢
    exact holds.find_merged_below running state granted below
  · rw [mergedIs] at distinct waits best ⊢
    exact holds.find_merged_above running state serves none_ distinct waits best above apart bottoms counts liveW predicted
end


section
/-! A sweep step (R165 to R170): how a sweep moves on, and each action as the single command leaves the part. -/

namespace Sys2Proof.Machine

variable {s t : State} {sw : Sweep} {j : Instr} {i : Fin 48} {r : Record} {h : Handle} {a : Answer} {p : State × Answer} {slot gen : Byte}

/-! ### How a sweep moves on (R170) -/

/-- What the end of a sweep makes of the part: the last result, and the notice SWEEP. -/
def sweepEnded (cause : EndCause) (sw : Sweep) (t : State) : State :=
  (withSweep { inFlight := none, lastResult := some { cause := cause, action := sw.action, acted := sw.acted, skipped := sw.skipped } } t).setDeviceNotice
    .sweep

theorem sweepEnded_overlay (cause : EndCause) (sw : Sweep) : Overlay (sweepEnded cause sw) where
  table _ := rfl
  pursuit _ := rfl
  arbiter _ := rfl
  scheduler _ := rfl
  time _ := rfl
  setContext _ _ := rfl
  setGrant _ _ := rfl
  setQueue _ _ := rfl
  setStack _ _ := rfl
  setArrivalCounter _ _ := rfl
  setEntries _ _ := rfl
  setPassWanted _ _ := rfl
  sendMove _ _ := rfl
  sendHalt _ := rfl
  withdrawRange _ := rfl
  modifyRecord s h f same := ((setDeviceNotice_overlay .sweep).modifyRecord _ h f same).trans
    (congrArg (State.setDeviceNotice · .sweep) ((withSweep_overlay _).modifyRecord s h f same))
  setRecordNotice s k h := ((setDeviceNotice_overlay .sweep).setRecordNotice _ k h).trans
    (congrArg (State.setDeviceNotice · .sweep) ((withSweep_overlay _).setRecordNotice s k h))
  setDeviceNotice s k := ((setDeviceNotice_overlay .sweep).setDeviceNotice _ k).trans
    (congrArg (State.setDeviceNotice · .sweep) ((withSweep_overlay _).setDeviceNotice s k))

theorem moveSweepOn_last (one : sw.remaining ≤ 1) : s.moveSweepOn sw = sweepEnded .count sw s := if_pos one

theorem moveSweepOn_end (more : ¬sw.remaining ≤ 1) (past : nextSlot sw.direction sw.next = none) : s.moveSweepOn sw = sweepEnded .tableEnd sw s := by
  rw [State.moveSweepOn, if_neg more, past]
  rfl

theorem moveSweepOn_next (more : ¬sw.remaining ≤ 1) (onward : nextSlot sw.direction sw.next = some i) : s.moveSweepOn sw =
    withSweep { s.sweep with inFlight := some { sw with next := i, remaining := sw.remaining - 1 } } s := by
  rw [State.moveSweepOn, if_neg more, onward]
  rfl

/-- Moving the sweep on is an overlay of the parts whose sweep unit is a given one. -/
theorem moveSweepOn_overlay (x : SweepUnit) (sw : Sweep) : ∃ φ, Overlay φ ∧ ∀ s : State, s.sweep = x → s.moveSweepOn sw = φ s := by
  by_cases one : sw.remaining ≤ 1
  · exact ⟨_, sweepEnded_overlay .count sw, fun s _ => moveSweepOn_last one⟩
  · cases onward : nextSlot sw.direction sw.next with
    | none => exact ⟨_, sweepEnded_overlay .tableEnd sw, fun s _ => moveSweepOn_end one onward⟩
    | some i =>
      refine ⟨_, withSweep_overlay { x with inFlight := some { sw with next := i, remaining := sw.remaining - 1 } }, fun s same => ?_⟩
      rw [moveSweepOn_next one onward, same]

theorem settle_moveSweepOn (n : Nat) : (s.moveSweepOn sw).settle n = (s.settle n).moveSweepOn sw := by
  obtain ⟨φ, overlay, moves⟩ := moveSweepOn_overlay s.sweep sw
  rw [moves s rfl, overlay.settle, moves _ (settle_setup s n).sweep]

/-- The slot past the sweep's own in its direction: the end of the table, or the neighbour. -/
theorem nextSlot_last (last : if sw.direction = .up then sw.next.val = 47 else sw.next.val = 0) : nextSlot sw.direction sw.next = none := by
  cases way : sw.direction with
  | up =>
    rw [way, if_pos rfl] at last
    exact dif_neg (by omega)
  | down =>
    rw [way, if_neg (by decide)] at last
    exact if_pos last

theorem nextSlot_onward (onward : if sw.direction = .up then i.val = sw.next.val + 1 else i.val + 1 = sw.next.val) :
    nextSlot sw.direction sw.next = some i := by
  cases way : sw.direction with
  | up =>
    rw [way, if_pos rfl] at onward
    exact (dif_pos (by omega)).trans (congrArg some (Fin.ext onward.symm))
  | down =>
    rw [way, if_neg (by decide)] at onward
    exact (if_neg (by omega)).trans (congrArg some (Fin.ext (by simp only; omega)))

/-! ### The step as a whole -/

theorem exec_sweepStep (up : s.resetnLow = false) (flight : s.sweep.inFlight = some sw) :
    exec .sweepStep s = .next (((sentNothing s).sweepStep sw).settle s.arbiter.queue.length) := by
  have runs : exec .sweepStep s = s.ownEvent fun s =>
      match s.sweep.inFlight with
      | some sw => s.sweepStep sw
      | none => s := rfl
  rw [runs, ownEvent_high s _ up, show s.quiet.sweep.inFlight = some sw from flight]
  rfl

theorem sweepStep_acts (matching : s.slotMatches sw.condition sw.next = true) (acts : s.actOnSlot sw.action sw.next = (t, a)) (n : Nat) :
    (s.sweepStep sw).settle n = (t.settle n).moveSweepOn (sw.counted a) := by
  rw [State.sweepStep, if_pos matching, acts]
  exact settle_moveSweepOn n

theorem sweepStep_passes (other : s.slotMatches sw.condition sw.next = false) (n : Nat) :
    (s.sweepStep sw).settle n = (s.settle n).moveSweepOn sw := by
  rw [State.sweepStep, if_neg (by rw [other]; decide)]
  exact settle_moveSweepOn n

theorem counted_acted (counts : a = .ok ∨ a = .already) : sw.counted a = { sw with acted := sw.acted + 1 } :=
  if_pos (by simpa [countsActed] using counts)

theorem counted_skipped (notOk : a ≠ .ok) (notAlready : a ≠ .already) : sw.counted a = { sw with skipped := sw.skipped + 1 } :=
  if_neg (by simp [countsActed, notOk, notAlready])

/-! ### Each action as its single command (R166) -/

/-- A command leaves the part, but for the link, as an operation does when nothing was sent, and answers as it does. -/
def ActsAs (s : State) (j : Instr) (p : State × Answer) : Prop :=
  ∃ w, exec j s = .next w ∧ w.link.response = some (noPayload p.2) ∧ { w with link := (sentNothing s).link } = p.1.settle s.arbiter.queue.length

theorem ActsAs.of_station {take : State → State × Response} (runs : exec j s = s.station j take) (up : s.resetnLow = false)
    (taken : take (s.atRise j) = (withLink (s.atRise j).link p.1, noPayload p.2)) (link : p.1.link = (sentNothing s).link)
    (still : p.1.settle s.arbiter.queue.length = p.1) : ActsAs s j p := by
  obtain ⟨response, left⟩ := respond_withLink (s.atRise j).link (noPayload p.2) link
  refine ⟨_, ?_, response, left.trans still.symm⟩
  rw [runs, station_high s _ _ up, taken]

theorem settle_sentNothing (calm : s.scheduler.passWanted = false) : (sentNothing s).settle s.arbiter.queue.length = sentNothing s :=
  settle_calm _ calm le_rfl

/-- A refusal of the record's owner or state. -/
theorem ActsAs.of_refusal {take : State → State × Response} (runs : exec j s = s.station j take) (up : s.resetnLow = false)
    (calm : s.scheduler.passWanted = false) (refused : take (s.atRise j) = (s.atRise j, noPayload a)) : ActsAs s j (sentNothing s, a) :=
  .of_station runs up refused rfl (settle_sentNothing calm)

theorem actsAs_release (up : s.resetnLow = false) (ok : s.lookup slot gen = .ok (h, r)) :
    ActsAs s (.release slot gen) ((sentNothing s).releaseRecord h r) := release_leaves up ok

theorem lookupOwned_station (ok : s.lookup slot gen = .ok (h, r)) (owner : r.owner = .station) : s.lookupOwned slot gen = .ok (h, r) := by
  simp [State.lookupOwned, ok, owner]

theorem actsAs_retire (up : s.resetnLow = false) (calm : s.scheduler.passWanted = false) (ok : s.lookup slot gen = .ok (h, r)) :
    ActsAs s (.retire slot gen) (ownedOr (sentNothing s) r ((sentNothing s).retireRecord h r)) := by
  obtain ⟨live, -, generation⟩ := lookup_ok s ok
  cases owner : r.owner with
  | pendant =>
    have refused := lookupOwned_pendant ok owner
    rw [ownedOr, if_pos owner]
    refine .of_refusal exec_retire up calm (settled_unchanged (s := s.atRise _) calm ?_)
    rw [takeRetire, lookupOwned_atRise, refused, onRecord_error]
  | station =>
    have owned := lookupOwned_station ok owner
    rw [ownedOr, if_neg (by rw [owner]; decide)]
    by_cases home : h.slot = 0
    · rw [retireRecord_home home]
      refine .of_refusal exec_retire up calm (settled_unchanged (s := s.atRise _) calm ?_)
      rw [takeRetire_owned (s := s.atRise _) owned, retireRecord_home home]
    · have self := withRecord_self s live
      have slot_ : (s.slotAt h.slot).generation = gen := slotAt_generation_of_owned owned
      have leaves := retire_leaves (s := s) (r := r) (r' := r) up (by rw [self]; exact owned) home rfl slot_
      obtain ⟨answer, -⟩ := retireRecord_rest (s := sentNothing s) (r := r) home slot_ s.arbiter.queue.length
      rw [self] at leaves
      rw [ActsAs, answer]
      exact leaves

/-- SET-REVISIT of period 0: the record has no period, and its entry is gone. -/
theorem Overlay.setRevisitOf_zero {φ : State → State} (ov : Overlay φ) :
    (φ s).setRevisitOf h r 0 = (φ (s.setRevisitOf h r 0).1, (s.setRevisitOf h r 0).2) := by
  have rescheduled : ((φ s).modifyRecord h fun r => { r with period := 0 }).reschedule h 0
      = φ ((s.modifyRecord h fun r => { r with period := 0 }).reschedule h 0) := by
    rw [ov.modifyRecord s h (fun r => { r with period := 0 }) fun _ => rfl, reschedule_zero rfl, reschedule_zero rfl, State.removeEntry,
      State.removeEntry, ov.scheduler, ov.setEntries]
  unfold State.setRevisitOf
  rw [rescheduled, ov.entryAt, ov.scheduler]
  simp only [apply_ite Prod.fst, apply_ite Prod.snd, apply_ite φ]
  split_ifs <;> rfl

theorem setRevisitOf_zero_cases :
    (s.setRevisitOf h r 0).1 = s ∨ (s.setRevisitOf h r 0).1 = (s.modifyRecord h fun r => { r with period := 0 }).removeEntry h.slot := by
  unfold State.setRevisitOf
  split
  · exact .inl rfl
  · split
    · exact .inl rfl
    · split
      · exact .inl rfl
      · split
        · exact .inl rfl
        · exact .inr (reschedule_zero rfl)

theorem setRevisitOf_zero_fields : (s.setRevisitOf h r 0).1.link = s.link
    ∧ (s.setRevisitOf h r 0).1.scheduler.passWanted = s.scheduler.passWanted ∧ (s.setRevisitOf h r 0).1.arbiter = s.arbiter := by
  rcases setRevisitOf_zero_cases (s := s) (h := h) (r := r) with same | removed
  · rw [same]
    exact ⟨rfl, rfl, rfl⟩
  · rw [removed]
    simp [State.removeEntry]

theorem exec_setRevisit (period : BitVec 16) : exec (.setRevisit slot gen period) s = s.station (.setRevisit slot gen period) (takeSetRevisit slot gen period) :=
  rfl

theorem actsAs_revisitOff (up : s.resetnLow = false) (calm : s.scheduler.passWanted = false) (ok : s.lookup slot gen = .ok (h, r)) :
    ActsAs s (.setRevisit slot gen 0) (ownedOr (sentNothing s) r ((sentNothing s).setRevisitOf h r 0)) := by
  cases owner : r.owner with
  | pendant =>
    rw [ownedOr, if_pos owner]
    refine .of_refusal (exec_setRevisit 0) up calm ?_
    rw [takeSetRevisit, lookupOwned_atRise, lookupOwned_pendant ok owner, onRecord_error]
  | station =>
    rw [ownedOr, if_neg (by rw [owner]; decide)]
    obtain ⟨link, wanted, arbiter⟩ := setRevisitOf_zero_fields (s := sentNothing s) (h := h) (r := r)
    refine .of_station (exec_setRevisit 0) up ?_ link (settle_calm _ (wanted.trans calm) (le_of_eq (congrArg (fun x : Arbiter => x.queue.length) arbiter).symm))
    rw [takeSetRevisit, lookupOwned_atRise, lookupOwned_station ok owner, onRecord_ok, atRise_withLink]
    exact congrArg (fun x : State × Answer => (x.1, noPayload x.2)) (withLink_overlay _).setRevisitOf_zero

theorem exec_setHold (x y : Byte) : exec (.setHold slot gen x y) s = s.station (.setHold slot gen x y) (takeSetHold slot gen x y) := rfl

theorem actsAs_hold {b : Byte} {v : Bool} (spelt : onOffOf b = some v) (up : s.resetnLow = false) (calm : s.scheduler.passWanted = false)
    (ok : s.lookup slot gen = .ok (h, r)) :
    ActsAs s (.setHold slot gen 2 b) (ownedOr (sentNothing s) r ((sentNothing s).setHoldOf h r v)) := by
  cases owner : r.owner with
  | pendant =>
    rw [ownedOr, if_pos owner]
    refine .of_refusal (exec_setHold 2 b) up calm ?_
    rw [takeSetHold, withSelector_same (selector := 2) (wanted := 2#8) rfl, lookupOwned_atRise, lookupOwned_pendant ok owner, onRecord_error]
  | station =>
    obtain ⟨live, -⟩ := lookup_ok s ok
    have live' : (sentNothing s).live h = some r := live
    rw [ownedOr, if_neg (by rw [owner]; decide), setHoldOf_live live']
    have taken := takeSetHold_defined (s := s.atRise (.setHold slot gen 2 b)) spelt (lookupOwned_station ok owner)
    by_cases same : r.hold = v
    · rw [if_pos same] at taken ⊢
      exact .of_refusal (exec_setHold 2 b) up calm taken
    · rw [if_neg same] at taken ⊢
      exact .of_station (exec_setHold 2 b) up taken rfl (settle_calm _ calm le_rfl)

/-! ### The sweep unit under the actions -/

theorem retireRecord_sweep : (s.retireRecord h r).1.sweep = s.sweep := by
  by_cases home : h.slot = 0
  · rw [retireRecord_home home]
  · rw [retireRecord_eq s home]
    have vacated : (((s.unclaim h r).removeEntry h.slot).vacate h.slot).judgeLine.sweep = s.sweep := unclaim_setup.sweep
    dsimp only
    split
    · exact (select_setup _ true).sweep.trans vacated
    · exact vacated

theorem setHoldOf_sweep (v : Bool) : (s.setHoldOf h r v).1.sweep = s.sweep := by
  rw [State.setHoldOf]
  split
  · rfl
  · exact (modifyRecord_fields s h _).2.2.2.2.2.2.2.2.1

theorem setRevisitOf_zero_sweep : (s.setRevisitOf h r 0).1.sweep = s.sweep := by
  rcases setRevisitOf_zero_cases (s := s) (h := h) (r := r) with same | removed
  · rw [same]
  · rw [removed]
    simp [State.removeEntry]

theorem ownedOr_sweep {p : State × Answer} (same : p.1.sweep = s.sweep) : (ownedOr s r p).1.sweep = s.sweep := by
  rw [ownedOr]
  split
  · rfl
  · exact same

theorem actOnRecord_sweep (x : SweepAction) : (s.actOnRecord x h r).1.sweep = s.sweep := by
  cases x with
  | release => exact (releaseRecord_setup s h r).sweep
  | retire => exact ownedOr_sweep retireRecord_sweep
  | revisitOff => exact ownedOr_sweep setRevisitOf_zero_sweep
  | holdOn => exact ownedOr_sweep (setHoldOf_sweep true)
  | holdOff => exact ownedOr_sweep (setHoldOf_sweep false)

theorem actOnSlot_live (held : s.recordAt i = some r) (x : SweepAction) : s.actOnSlot x i = s.actOnRecord x (s.handleOf i) r := by
  rw [State.actOnSlot, held]

theorem actOnSlot_vacant (vacant : s.recordAt i = none) (x : SweepAction) : s.actOnSlot x i = (s, .vacant) := by
  rw [State.actOnSlot, vacant]

/-- The single command of an action, with the slot and the generation it names. -/
def singles (slot gen : Byte) : List (SweepAction × Instr) :=
  [(.release, .release slot gen), (.retire, .retire slot gen), (.revisitOff, .setRevisit slot gen 0), (.holdOn, .setHold slot gen 2 1),
    (.holdOff, .setHold slot gen 2 0)]

/-- Each action leaves what its single command leaves. -/
theorem actsAs_single (up : s.resetnLow = false) (calm : s.scheduler.passWanted = false) (ok : s.lookup slot gen = .ok (h, r))
    (x : SweepAction × Instr) (mem : x ∈ singles slot gen) : ActsAs s x.2 ((sentNothing s).actOnRecord x.1 h r) := by
  simp only [singles, List.mem_cons, List.not_mem_nil, or_false] at mem
  rcases mem with rfl | rfl | rfl | rfl | rfl
  · exact actsAs_release up ok
  · exact actsAs_retire up calm ok
  · exact actsAs_revisitOff up calm ok
  · exact actsAs_hold rfl up calm ok
  · exact actsAs_hold rfl up calm ok

/-- HOLD-ON and HOLD-OFF of a station-owned record leave hold as the action says. -/
theorem actOnRecord_hold {x : SweepAction} (live : s.live h = some r) (owner : r.owner = .station) (hold : x = .holdOn ∨ x = .holdOff) :
    ∃ a, (a = .ok ∨ a = .already) ∧ s.actOnRecord x h r = (s.withRecord h { r with hold := decide (x = .holdOn) }, a) := by
  have held (v : Bool) : ∃ a, (a = .ok ∨ a = .already) ∧ s.setHoldOf h r v = (s.withRecord h { r with hold := v }, a) := by
    rw [setHoldOf_live live]
    by_cases same : r.hold = v
    · subst same
      refine ⟨.already, .inr rfl, ?_⟩
      rw [if_pos rfl]
      exact congrArg (·, Answer.already) (withRecord_self s live).symm
    · exact ⟨.ok, .inl rfl, if_neg same⟩
  have mine (p : State × Answer) : ownedOr s r p = p := if_neg (by rw [owner]; decide)
  rcases hold with rfl | rfl
  · rw [State.actOnRecord, mine]
    exact held true
  · rw [State.actOnRecord, mine]
    exact held false

theorem actOnRecord_owner {x : SweepAction} (owner : r.owner = .pendant) (hold : x = .holdOn ∨ x = .holdOff) : s.actOnRecord x h r = (s, .owner) := by
  rcases hold with rfl | rfl
  · exact if_pos owner
  · exact if_pos owner

end Sys2Proof.Machine

open Sys2Proof Sys2Proof.Machine

/-- Settles O39: what the slot's match and its action leave, and where the sweep goes from there. -/
theorem sweepStepMovesOn : Obligations.SweepStepMovesOn := by
  unfold Obligations.SweepStepMovesOn
  intro s sw up calm flight some_ slot gen single last goesOn quiet
  have goes {t u : State} {acted skipped : Nat} (same : t.sweep = s.sweep) (moved : u = t.moveSweepOn { sw with acted := acted, skipped := skipped }) :
      goesOn t u acted skipped := by
    refine ⟨fun one => ?_, fun more past => ?_, fun more inside j onward => ?_⟩
    · exact moved.trans (moveSweepOn_last (sw := { sw with acted := acted, skipped := skipped }) (le_of_eq one))
    · have more' : ¬sw.remaining ≤ 1 := by omega
      exact moved.trans (moveSweepOn_end (sw := { sw with acted := acted, skipped := skipped }) more' (nextSlot_last past))
    · have more' : ¬sw.remaining ≤ 1 := by omega
      refine moved.trans ((moveSweepOn_next (sw := { sw with acted := acted, skipped := skipped }) more' (nextSlot_onward onward)).trans ?_)
      rw [same]
      rfl
  have still := settle_sentNothing (s := s) calm
  have acts {t : State} {a : Answer} (matching : s.slotMatches sw.condition sw.next = true)
      (acted : (sentNothing s).actOnSlot sw.action sw.next = (t, a)) :
      ((sentNothing s).sweepStep sw).settle s.arbiter.queue.length = (t.settle s.arbiter.queue.length).moveSweepOn (sw.counted a) :=
    sweepStep_acts (s := sentNothing s) matching acted _
  refine ⟨_, exec_sweepStep up flight, fun other => goes rfl ?_, fun matching vacant => goes rfl ?_,
    fun r matching held hold => ⟨fun owner => goes rfl ?_, fun owner => goes rfl ?_⟩, fun x mem action matching occupied => ?_⟩
  · rw [sweepStep_passes (s := sentNothing s) other, still]
  · rw [acts matching (actOnSlot_vacant (s := sentNothing s) vacant _), still, counted_skipped (a := .vacant) nofun nofun]
  · rw [acts matching ((actOnSlot_live (s := sentNothing s) held _).trans (actOnRecord_owner owner hold)), still, counted_skipped (a := .owner) nofun nofun]
  · have live : (sentNothing s).live ((sentNothing s).handleOf sw.next) = some r := (live_eq_some (sentNothing s)).mpr ⟨rfl, held⟩
    obtain ⟨a, counts, holds⟩ := actOnRecord_hold live owner hold
    rw [acts matching ((actOnSlot_live (s := sentNothing s) held _).trans holds), counted_acted counts]
    exact congrArg (fun t : State => t.moveSweepOn { sw with acted := sw.acted + 1 }) (settle_calm _ calm le_rfl)
  · obtain ⟨r, held⟩ := Option.ne_none_iff_exists'.mp occupied
    have named : sw.next.val = slot.toNat := by
      dsimp only [slot]
      rw [BitVec.toNat_ofNat]
      omega
    obtain ⟨w, leaves, response, left⟩ := actsAs_single up calm (lookup_named named held rfl) x mem
    rw [action] at response left
    have done := actOnSlot_live (s := sentNothing s) held sw.action
    have sweep := actOnRecord_sweep (s := sentNothing s) (h := s.handleOf sw.next) (r := r) sw.action
    refine ⟨w, leaves, ((sentNothing s).actOnRecord sw.action (s.handleOf sw.next) r).2, by rw [response]; rfl, fun counts => goes ?_ ?_,
      fun notOk notAlready => goes ?_ ?_⟩
    · exact (congrArg State.sweep left).trans ((settle_setup _ _).sweep.trans sweep)
    · rw [acts matching done]
      exact (congrArg (fun c => State.moveSweepOn _ c) (counted_acted counts)).trans
        (congrArg (fun t : State => t.moveSweepOn { sw with acted := sw.acted + 1 }) left.symm)
    · exact (congrArg State.sweep left).trans ((settle_setup _ _).sweep.trans sweep)
    · rw [acts matching done]
      exact (congrArg (fun c => State.moveSweepOn _ c) (counted_skipped notOk notAlready)).trans
        (congrArg (fun t : State => t.moveSweepOn { sw with skipped := sw.skipped + 1 }) left.symm)
end


section
/-! Where each request stands while an event is under way: the invariant of the beam with some requests taken out of their collections and not yet put anywhere
(R79, R80, R81, R104). -/

namespace Sys2Proof.Machine

variable {s t u : State} {h k : Handle} {q x : Request} {st st' : RecState} {L : List Request} {r : Record}

/-! ### States of records -/

/-- The state of the record a handle names, none where it names none. -/
def State.stateOf (s : State) (h : Handle) : Option RecState := (s.live h).map (·.state)

theorem stateOf_eq_some : s.stateOf h = some st ↔ ∃ r, s.live h = some r ∧ r.state = st := by
  rw [State.stateOf, Option.map_eq_some_iff]

theorem stateOf_of_live (live : s.live h = some r) : s.stateOf h = some r.state := by rw [State.stateOf, live, Option.map_some]

/-- Two live handles of one slot are one. -/
theorem handle_unique (a : s.stateOf h = some st) (b : s.stateOf k = some st') (same : h.slot = k.slot) : h = k := by
  obtain ⟨r, liveH, -⟩ := stateOf_eq_some.mp a
  obtain ⟨r', liveK, -⟩ := stateOf_eq_some.mp b
  obtain ⟨generationH, -⟩ := (live_eq_some s).mp liveH
  obtain ⟨generationK, -⟩ := (live_eq_some s).mp liveK
  obtain ⟨slotH, genH⟩ := h
  obtain ⟨slotK, genK⟩ := k
  obtain rfl : slotH = slotK := same
  exact congrArg (Handle.mk slotH) (generationH.symm.trans generationK)

/-- A change delivered under a handle shows under that handle only. -/
theorem live_modified (f : Record → Record) : (s.modifyRecord h f).live k = if k = h then (s.live k).map f else s.live k := by
  cases live : s.live h with
  | none =>
    rw [modifyRecord_none s f live]
    split
    · next same => rw [same, live, Option.map_none]
    · rfl
  | some r =>
    by_cases same : k = h
    · subst same
      rw [if_pos rfl, live_modifyRecord s f live, live, Option.map_some]
    · rw [if_neg same]
      by_cases slot : k.slot = h.slot
      · have other : h.generation ≠ k.generation := fun generation => same (by
          obtain ⟨slotH, genH⟩ := h
          obtain ⟨slotK, genK⟩ := k
          simp_all)
        obtain ⟨generation, -⟩ := (live_eq_some s).mp live
        have here : ((s.modifyRecord h f).slotAt k.slot).generation = h.generation := by
          rw [slotAt_modifyRecord, slot, if_pos ⟨rfl, generation⟩]
          exact generation
        rw [State.live, State.live, here, slot, generation, if_neg other, if_neg other]
      · exact live_modifyRecord_other s f slot

theorem stateOf_modified (f : Record → Record) : (s.modifyRecord h f).stateOf k = if k = h then (s.live k).map fun r => (f r).state else s.stateOf k := by
  rw [State.stateOf, live_modified]
  split
  · rw [Option.map_map]
    rfl
  · rfl

/-- A change that leaves the state of the record alone leaves every state alone. -/
theorem stateOf_modified_same {f : Record → Record} (same : ∀ r, (f r).state = r.state) : (s.modifyRecord h f).stateOf k = s.stateOf k := by
  rw [stateOf_modified]
  split
  · simp only [same]
    rfl
  · rfl

/-! ### Where a request stands -/

/-- A request stands in the queue, on the stack or in the grant, with the state that its record has there. -/
inductive Stands (s : State) : Request → RecState → Prop where
  | queued {q : Request} (waits : q ∈ s.arbiter.queue.map (·.request)) : Stands s q .queued
  | stacked {q : Request} (waits : q ∈ s.arbiter.stack) : Stands s q .suspended
  | granted {q : Request} {c : Context} (granted : s.arbiter.grant = some q) (pursued : s.pursuit = some c) : Stands s q (.active c.stage)

/-- The collections hold what they may, with no slot and no arrival number twice. -/
structure Bounded (a : Arbiter) : Prop where
  room : a.queue.length ≤ 12
  depth : a.stack.length ≤ 4
  queueSlots : (a.queue.map (·.request.handle.slot)).Nodup
  stackSlots : (a.stack.map (·.handle.slot)).Nodup
  arrivals : (a.queue.map (·.arrival)).Nodup
  below : ∀ e ∈ a.queue, e.arrival < a.arrivalCounter
  counter : a.arrivalCounter ≤ 65535

/-- The context is that of the grant. -/
structure Aimed (s : State) : Prop where
  context : s.pursuit.isSome = s.arbiter.grant.isSome
  target : ∀ g c, s.arbiter.grant = some g → s.pursuit = some c → c.target = g.handle ∧ c.origin = g.origin

/-- The records, the collections and the revisit list agree, but for the requests L, which have been taken out of their collections. -/
structure Placed (L : List Request) (s : State) : Prop where
  states : ∀ q st, Stands s q st → s.stateOf q.handle = some st
  stands : ∀ h st, s.stateOf h = some st → st ≠ .dormant → (∃ q ∈ L, q.handle = h) ∨ ∃ q st, Stands s q st ∧ q.handle = h
  looseLive : ∀ q ∈ L, ∃ st, s.stateOf q.handle = some st
  looseApart : ∀ q ∈ L, ∀ x st, Stands s x st → x.handle.slot ≠ q.handle.slot
  looseSlots : (L.map (·.handle.slot)).Nodup
  offers : ∀ e ∈ s.scheduler.entries, e.status = .offered →
    ∃ q, q.handle = e.handle ∧ q.origin = .revisit ∧ (q ∈ L ∨ ∃ st, Stands s q st ∧ st ≠ .suspended)
  idle : s.arbiter.runMode = .parked → L = [] ∧ ∀ q st, ¬Stands s q st
  aimed : Aimed s
  bounds : Bounded s.arbiter
  list : ListLegal s

/-- Two requests that stand with different states have different slots. -/
theorem Placed.apart (p : Placed L s) (a : Stands s q st) (b : Stands s x st') (other : st ≠ st') : q.handle.slot ≠ x.handle.slot := by
  intro same
  have one := handle_unique (p.states q st a) (p.states x st' b) same
  have both := (p.states q st a).symm.trans (one ▸ p.states x st' b)
  exact other (Option.some.inj both)

/-! ### What leaves the beam alone -/

/-- What a context says of the beam. -/
def Context.place (c : Context) : Handle × Origin × Stage := (c.target, c.origin, c.stage)

/-- From s to t the beam is left alone, but for records that L names. -/
structure Frames (L : List Request) (s t : State) : Prop where
  arbiter : t.arbiter = s.arbiter
  place : t.pursuit.map Context.place = s.pursuit.map Context.place
  states : ∀ h, (∀ q ∈ L, q.handle ≠ h) → t.stateOf h = s.stateOf h
  loose : ∀ q ∈ L, ∀ st, s.stateOf q.handle = some st → ∃ st', t.stateOf q.handle = some st'
  offered : ∀ e ∈ t.scheduler.entries, e.status = .offered → ∃ x ∈ s.scheduler.entries, x.handle = e.handle ∧ x.status = .offered

theorem Frames.refl (s : State) : Frames L s s := ⟨rfl, rfl, fun _ _ => rfl, fun _ _ st live => ⟨st, live⟩, fun e mem is => ⟨e, mem, rfl, is⟩⟩

theorem Frames.trans (a : Frames L s t) (b : Frames L t u) : Frames L s u where
  arbiter := b.arbiter.trans a.arbiter
  place := b.place.trans a.place
  states h other := (b.states h other).trans (a.states h other)
  loose q mem st live := by
    obtain ⟨st', live'⟩ := a.loose q mem st live
    exact b.loose q mem st' live'
  offered e mem is := by
    obtain ⟨y, memY, same, isY⟩ := b.offered e mem is
    obtain ⟨z, memZ, same', isZ⟩ := a.offered y memY isY
    exact ⟨z, memZ, same'.trans same, isZ⟩

theorem Frames.ite {a b : State} {c : Prop} [Decidable c] (ha : Frames L s a) (hb : Frames L s b) : Frames L s (if c then a else b) := by
  split <;> assumption

theorem Frames.weaken {L' : List Request} (a : Frames [] s t) : Frames L' s t where
  arbiter := a.arbiter
  place := a.place
  states h _ := a.states h nofun
  loose q _ st live := ⟨st, (a.states q.handle nofun).trans live⟩
  offered := a.offered

/-- An update that keeps the table, the collections and the list, and of the context what it says of the beam. -/
theorem Frames.plain (arbiter : t.arbiter = s.arbiter) (place : t.pursuit.map Context.place = s.pursuit.map Context.place)
    (table : t.table = s.table) (entries : t.scheduler.entries = s.scheduler.entries) : Frames L s t where
  arbiter := arbiter
  place := place
  states h _ := by rw [State.stateOf, State.stateOf, State.live, State.live, State.slotAt, State.slotAt, table]
  loose q _ st live := ⟨st, by
    rw [State.stateOf, State.live, State.slotAt] at live ⊢
    rw [table]
    exact live⟩
  offered e mem is := ⟨e, entries ▸ mem, rfl, is⟩

theorem stands_congr (arbiter : t.arbiter = s.arbiter) (place : t.pursuit.map Context.place = s.pursuit.map Context.place) :
    Stands t q st ↔ Stands s q st := by
  constructor
  · rintro (waits | waits | ⟨granted, pursued⟩)
    · exact .queued (arbiter ▸ waits)
    · exact .stacked (arbiter ▸ waits)
    · rw [pursued] at place
      obtain ⟨c, pursued', same⟩ := Option.map_eq_some_iff.mp place.symm
      have stage := congrArg (fun p : Handle × Origin × Stage => p.2.2) same
      simp only [Context.place] at stage
      rw [← stage]
      exact .granted (arbiter ▸ granted) pursued'
  · rintro (waits | waits | ⟨granted, pursued⟩)
    · exact .queued (arbiter ▸ waits)
    · exact .stacked (arbiter ▸ waits)
    · rw [pursued] at place
      obtain ⟨c, pursued', same⟩ := Option.map_eq_some_iff.mp place
      have stage := congrArg (fun p : Handle × Origin × Stage => p.2.2) same
      simp only [Context.place] at stage
      rw [← stage]
      exact .granted (arbiter ▸ granted) pursued'

theorem Aimed.of_place (a : Aimed s) (arbiter : t.arbiter = s.arbiter) (place : t.pursuit.map Context.place = s.pursuit.map Context.place) : Aimed t where
  context := by
    rw [arbiter, ← a.context, ← Option.isSome_map (f := Context.place), place, Option.isSome_map]
  target g c granted pursued := by
    rw [pursued] at place
    obtain ⟨c', pursued', same⟩ := Option.map_eq_some_iff.mp place.symm
    obtain ⟨target, origin⟩ := a.target g c' (arbiter ▸ granted) pursued'
    simp only [Context.place, Prod.mk.injEq] at same
    exact ⟨same.1.symm.trans target, same.2.1.symm.trans origin⟩

/-- The agreement carried over to a state with the same collections, where each revisit OFFERED still has its request. -/
theorem Placed.congr (p : Placed L s) (arbiter : t.arbiter = s.arbiter) (place : t.pursuit.map Context.place = s.pursuit.map Context.place)
    (states : ∀ h, (∀ q ∈ L, q.handle ≠ h) → t.stateOf h = s.stateOf h)
    (loose : ∀ q ∈ L, ∀ st, s.stateOf q.handle = some st → ∃ st', t.stateOf q.handle = some st')
    (offers : ∀ e ∈ t.scheduler.entries, e.status = .offered →
      ∃ q, q.handle = e.handle ∧ q.origin = .revisit ∧ (q ∈ L ∨ ∃ st, Stands s q st ∧ st ≠ .suspended))
    (list : ListLegal s → ListLegal t) : Placed L t where
  states q st stands := by
    have stood := (stands_congr arbiter place).mp stands
    refine (states q.handle fun x mem same => ?_).trans (p.states q st stood)
    exact p.looseApart x mem q st stood (congrArg Handle.slot same.symm)
  stands h st state awake := by
    by_cases named : ∃ q ∈ L, q.handle = h
    · exact .inl named
    · have same := states h fun q mem is => named ⟨q, mem, is⟩
      rcases p.stands h st (same.symm.trans state) awake with loose | ⟨q, st', stood, is⟩
      · exact .inl loose
      · exact .inr ⟨q, st', (stands_congr arbiter place).mpr stood, is⟩
  looseLive q mem := by
    obtain ⟨st, live⟩ := p.looseLive q mem
    exact loose q mem st live
  looseApart q mem x st stood := p.looseApart q mem x st ((stands_congr arbiter place).mp stood)
  looseSlots := p.looseSlots
  offers e mem is := by
    obtain ⟨q, handle, origin, where_⟩ := offers e mem is
    refine ⟨q, handle, origin, where_.imp id ?_⟩
    rintro ⟨st, stood, other⟩
    exact ⟨st, (stands_congr arbiter place).mpr stood, other⟩
  idle mode := by
    obtain ⟨none_, nothing⟩ := p.idle (arbiter ▸ mode)
    exact ⟨none_, fun q st stood => nothing q st ((stands_congr arbiter place).mp stood)⟩
  aimed := p.aimed.of_place arbiter place
  bounds := arbiter ▸ p.bounds
  list := list p.list

/-- What leaves the beam alone, but for the loose records, leaves it in agreement. -/
theorem Placed.frames (p : Placed L s) (f : Frames L s t) (keeps : Keeps s t) : Placed L t := by
  refine p.congr f.arbiter f.place f.states f.loose (fun e mem is => ?_) keeps.list
  obtain ⟨y, memY, same, isY⟩ := f.offered e mem is
  obtain ⟨q, handle, rest⟩ := p.offers y memY isY
  exact ⟨q, handle.trans same, rest⟩

/-! ### Requests taken out of their collections, put into them, and dropped -/

/-- A request taken out of where it stands is loose. -/
theorem Placed.takeOut (p : Placed L s) (stood : Stands s q st) (sub : ∀ x st, Stands t x st → Stands s x st ∧ x.handle.slot ≠ q.handle.slot)
    (back : ∀ x st, Stands s x st → Stands t x st ∨ x = q) (states : ∀ h, t.stateOf h = s.stateOf h) (mode : t.arbiter.runMode = s.arbiter.runMode)
    (entries : t.scheduler.entries = s.scheduler.entries) (aimed : Aimed t) (bounds : Bounded t.arbiter) (keeps : Keeps s t) :
    Placed (q :: L) t where
  states x st stands := (states x.handle).trans (p.states x st (sub x st stands).1)
  stands h st' state awake := by
    rcases p.stands h st' ((states h).symm.trans state) awake with ⟨x, mem, is⟩ | ⟨x, st, stands, is⟩
    · exact .inl ⟨x, List.mem_cons_of_mem _ mem, is⟩
    · rcases back x st stands with still | rfl
      · exact .inr ⟨x, st, still, is⟩
      · exact .inl ⟨x, List.mem_cons_self, is⟩
  looseLive x mem := by
    rcases List.mem_cons.mp mem with rfl | old
    · exact ⟨st, (states x.handle).trans (p.states x st stood)⟩
    · obtain ⟨st', live⟩ := p.looseLive x old
      exact ⟨st', (states x.handle).trans live⟩
  looseApart x mem y st' stands := by
    obtain ⟨stands', other⟩ := sub y st' stands
    rcases List.mem_cons.mp mem with rfl | old
    · exact other
    · exact p.looseApart x old y st' stands'
  looseSlots := by
    refine List.nodup_cons.mpr ⟨fun mem => ?_, p.looseSlots⟩
    obtain ⟨x, old, same⟩ := List.mem_map.mp mem
    exact p.looseApart x old q st stood same.symm
  offers e mem is := by
    obtain ⟨x, handle, origin, where_⟩ := p.offers e (entries ▸ mem) is
    refine ⟨x, handle, origin, ?_⟩
    rcases where_ with old | ⟨st', stands, other⟩
    · exact .inl (List.mem_cons_of_mem _ old)
    · rcases back x st' stands with still | rfl
      · exact .inr ⟨st', still, other⟩
      · exact .inl List.mem_cons_self
  idle parked := absurd stood ((p.idle (mode ▸ parked)).2 q st)
  aimed := aimed
  bounds := bounds
  list := keeps.list p.list

/-- A loose request put where its record's state says. -/
theorem Placed.putIn (p : Placed (q :: L) s) (new : Stands t q st) (old : ∀ x st, Stands s x st → Stands t x st)
    (only : ∀ x st', Stands t x st' → Stands s x st' ∨ x = q ∧ st' = st) (plain : st ≠ .suspended ∨ q.origin ≠ .revisit)
    (here : t.stateOf q.handle = some st) (others : ∀ h, h ≠ q.handle → t.stateOf h = s.stateOf h) (mode : t.arbiter.runMode = s.arbiter.runMode)
    (entries : t.scheduler.entries = s.scheduler.entries) (aimed : Aimed t) (bounds : Bounded t.arbiter) (keeps : Keeps s t) :
    Placed L t where
  states x st' stands := by
    rcases only x st' stands with stood | ⟨rfl, rfl⟩
    · refine (others x.handle fun same => ?_).trans (p.states x st' stood)
      exact p.looseApart q List.mem_cons_self x st' stood (congrArg Handle.slot same)
    · exact here
  stands h st' state awake := by
    by_cases same : h = q.handle
    · exact .inr ⟨q, st, new, same.symm⟩
    · rcases p.stands h st' ((others h same).symm.trans state) awake with ⟨x, mem, is⟩ | ⟨x, st, stands, is⟩
      · rcases List.mem_cons.mp mem with rfl | mem
        · exact absurd is.symm same
        · exact .inl ⟨x, mem, is⟩
      · exact .inr ⟨x, st, old x st stands, is⟩
  looseLive x mem := by
    obtain ⟨st', live⟩ := p.looseLive x (List.mem_cons_of_mem _ mem)
    refine ⟨st', (others x.handle fun same => ?_).trans live⟩
    exact (List.nodup_cons.mp p.looseSlots).1 (List.mem_map.mpr ⟨x, mem, congrArg Handle.slot same⟩)
  looseApart x mem y st' stands := by
    rcases only y st' stands with stood | ⟨rfl, rfl⟩
    · exact p.looseApart x (List.mem_cons_of_mem _ mem) y st' stood
    · exact fun same => (List.nodup_cons.mp p.looseSlots).1 (List.mem_map.mpr ⟨x, mem, same.symm⟩)
  looseSlots := (List.nodup_cons.mp p.looseSlots).2
  offers e mem is := by
    obtain ⟨x, handle, origin, where_⟩ := p.offers e (entries ▸ mem) is
    refine ⟨x, handle, origin, ?_⟩
    rcases where_ with loose | ⟨st', stands, other⟩
    · rcases List.mem_cons.mp loose with rfl | loose
      · exact .inr ⟨st, new, plain.resolve_right (not_not.mpr origin)⟩
      · exact .inl loose
    · exact .inr ⟨st', old x st' stands, other⟩
  idle parked := absurd (p.idle (mode ▸ parked)).1 (List.cons_ne_nil q L)
  aimed := aimed
  bounds := bounds
  list := keeps.list p.list

/-- A loose request whose record is DORMANT or gone, and has no revisit OFFERED, is dropped. -/
theorem Placed.drop (p : Placed (q :: L) s) (asleep : ∀ st, s.stateOf q.handle = some st → st = .dormant)
    (told : ∀ e ∈ s.scheduler.entries, e.handle = q.handle → e.status ≠ .offered) : Placed L s where
  states := p.states
  stands h st state awake := by
    rcases p.stands h st state awake with ⟨x, mem, is⟩ | stands
    · rcases List.mem_cons.mp mem with rfl | mem
      · exact absurd (asleep st (is ▸ state)) awake
      · exact .inl ⟨x, mem, is⟩
    · exact .inr stands
  looseLive x mem := p.looseLive x (List.mem_cons_of_mem _ mem)
  looseApart x mem := p.looseApart x (List.mem_cons_of_mem _ mem)
  looseSlots := (List.nodup_cons.mp p.looseSlots).2
  offers e mem is := by
    obtain ⟨x, handle, origin, where_⟩ := p.offers e mem is
    refine ⟨x, handle, origin, where_.imp_left fun loose => ?_⟩
    rcases List.mem_cons.mp loose with rfl | loose
    · exact absurd is (told e mem handle.symm)
    · exact loose
  idle parked := absurd (p.idle parked).1 (List.cons_ne_nil q L)
  aimed := p.aimed
  bounds := p.bounds
  list := p.list

/-- A new request for a DORMANT record is loose. -/
theorem Placed.ask (p : Placed [] s) (asleep : s.stateOf q.handle = some .dormant) (running : s.arbiter.runMode = .running) : Placed [q] s where
  states := p.states
  stands h st state awake := (p.stands h st state awake).imp (fun ⟨_, mem, _⟩ => nomatch mem) id
  looseLive x mem := ⟨.dormant, by rw [List.mem_singleton.mp mem]; exact asleep⟩
  looseApart x mem y st stood same := by
    rw [List.mem_singleton.mp mem] at same
    have state := p.states y st stood
    have one := handle_unique state asleep same
    rw [one, asleep] at state
    cases stood <;> cases state
  looseSlots := List.nodup_singleton _
  offers e mem is := by
    obtain ⟨x, handle, origin, where_⟩ := p.offers e mem is
    exact ⟨x, handle, origin, where_.imp_left fun loose => nomatch loose⟩
  idle parked := nomatch running.symm.trans parked
  aimed := p.aimed
  bounds := p.bounds
  list := p.list

/-- The record of a revisit that is OFFERED has a REVISIT request; a loose one's is the loose request itself. -/
theorem Placed.not_offered (p : Placed (q :: L) s) (other : q.origin ≠ .revisit) (e : RevisitEntry) (mem : e ∈ s.scheduler.entries)
    (same : e.handle = q.handle) : e.status ≠ .offered := by
  intro is
  obtain ⟨x, handle, origin, where_⟩ := p.offers e mem is
  rcases where_ with loose | ⟨st, stood, -⟩
  · rcases List.mem_cons.mp loose with rfl | loose
    · exact other origin
    · exact (List.nodup_cons.mp p.looseSlots).1 (List.mem_map.mpr ⟨x, loose, congrArg Handle.slot (handle.trans same)⟩)
  · exact p.looseApart q List.mem_cons_self x st stood (congrArg Handle.slot (handle.trans same))

end Sys2Proof.Machine
end


section
/-! What the operations on records, on notices, on the links and on the revisit list leave of the beam, and the end of a request's stay: its record DORMANT and
the end reported (R109, R111, R112, R113). -/

namespace Sys2Proof.Machine

variable {s t u : State} {h k : Handle} {q x : Request} {st st' : RecState} {L : List Request} {r : Record} {o : EndOutcome}

/-! ### Records, notices and links -/

theorem setPassWanted_frames (b : Bool) : Frames L s (s.setPassWanted b) := .plain rfl rfl rfl rfl
theorem setDeviceNotice_frames (j : DeviceNotice) : Frames L s (s.setDeviceNotice j) := .plain rfl rfl rfl rfl
theorem judgeLine_frames : Frames L s s.judgeLine := .plain rfl rfl rfl rfl
theorem sendMove_frames (d : Direction) : Frames L s (s.sendMove d) := .plain rfl rfl rfl rfl
theorem sendFollow_frames (d : Direction) : Frames L s (s.sendFollow d) := .plain rfl rfl rfl rfl
theorem sendHalt_frames : Frames L s s.sendHalt := .plain rfl rfl rfl rfl
theorem sendRange_frames : Frames L s s.sendRange := .plain rfl rfl rfl rfl
theorem withdrawRange_frames : Frames L s s.withdrawRange := .plain rfl rfl rfl rfl
theorem countRangeFailure_frames : Frames L s s.countRangeFailure := .plain rfl rfl rfl rfl

theorem countFalseReturn_frames : Frames L s s.countFalseReturn := by
  have noted : Frames L s (if s.notices.falseReturns = 0 then s.setDeviceNotice .falseReturn else s) := .ite (setDeviceNotice_frames _) (.refl s)
  exact noted.trans (.plain rfl rfl rfl rfl)

/-- A change to a record that leaves its state alone. -/
theorem modifyRecord_frames {f : Record → Record} (same : ∀ r, (f r).state = r.state) : Frames L s (s.modifyRecord h f) := by
  obtain ⟨-, -, pursuit, arbiter, scheduler, -⟩ := modifyRecord_fields s h f
  refine Frames.weaken ⟨arbiter, by rw [pursuit], fun k _ => stateOf_modified_same same, nofun, fun e mem is => ⟨e, ?_, rfl, is⟩⟩
  rwa [scheduler] at mem

/-- A change to a record that leaves its state alone, and then what leaves the beam alone. -/
theorem Frames.after_modify {f : Record → Record} (rest : Frames L (s.modifyRecord h f) t) (same : ∀ r, (f r).state = r.state) : Frames L s t :=
  (modifyRecord_frames same).trans rest

theorem setRecordNotice_frames (j : RecordNotice) : Frames L s (s.setRecordNotice j h) := .after_modify judgeLine_frames fun _ => rfl

/-- A change to the record of a loose request. -/
theorem modifyLoose_frames (f : Record → Record) (loose : ∃ q ∈ L, q.handle = h) : Frames L s (s.modifyRecord h f) := by
  obtain ⟨-, -, pursuit, arbiter, scheduler, -⟩ := modifyRecord_fields s h f
  refine ⟨arbiter, by rw [pursuit], fun k other => ?_, fun q _ st live => ?_, fun e mem is => ⟨e, ?_, rfl, is⟩⟩
  · obtain ⟨q, mem, rfl⟩ := loose
    rw [stateOf_modified, if_neg fun same => other q mem same.symm]
  · rw [stateOf_modified]
    split
    · obtain ⟨r, held, -⟩ := stateOf_eq_some.mp live
      exact ⟨(f r).state, by rw [held, Option.map_some]⟩
    · exact ⟨st, live⟩
  · rwa [scheduler] at mem

/-! ### The revisit list -/

/-- An entry placed that is not OFFERED. -/
theorem placeEntry_frames {e : RevisitEntry} (is : e.status ≠ .offered) : Frames L s (s.placeEntry e) := by
  refine Frames.weaken ⟨rfl, rfl, fun _ _ => rfl, nofun, fun x mem offered => ?_⟩
  rcases mem_insertEntry.mp mem with rfl | old
  · exact absurd offered is
  · exact ⟨x, (mem_withoutEntry.mp old).1, rfl, offered⟩

theorem scheduleAfter_frames (r : Record) (t : Time) : Frames L s (s.scheduleAfter h r t) := placeEntry_frames (by simp)

theorem setEntryStatus_frames {v : RevisitStatus} (i : Fin 48) (other : v ≠ .offered) : Frames L s (s.setEntryStatus i v) := by
  refine Frames.weaken ⟨rfl, rfl, fun _ _ => rfl, nofun, fun x mem offered => ?_⟩
  obtain ⟨y, memY, rfl⟩ := List.mem_map.mp mem
  by_cases here : y.handle.slot = i
  · rw [if_pos here] at offered
    exact absurd offered other
  · rw [if_neg here] at offered ⊢
    exact ⟨y, memY, rfl, offered⟩

theorem miss_frames : Frames L s (s.miss h) := by
  unfold State.miss
  cases s.live h with
  | none => exact .refl s
  | some r => exact .after_modify ((setRecordNotice_frames _).trans (scheduleAfter_frames _ _)) fun _ => rfl

theorem revisitReport_frames (o : EndOutcome) : Frames L s (s.revisitReport h o) := by
  unfold State.revisitReport
  cases s.entryAt h.slot with
  | none => exact .refl s
  | some e =>
    refine .ite ?_ (.refl s)
    cases o
    case lost => exact miss_frames
    case fault => exact miss_frames
    case released =>
      cases s.live h with
      | none => exact .refl s
      | some r => exact scheduleAfter_frames r _
    case parked => exact setEntryStatus_frames _ (by decide)
    all_goals exact .refl s

theorem reportEnd_frames (q : Request) (o : EndOutcome) : Frames L s (s.reportEnd q o) := by
  unfold State.reportEnd
  cases q.origin with
  | station => exact .refl s
  | pendant => exact .refl s
  | revisit => exact .ite (revisitReport_frames o) ((revisitReport_frames o).trans (setPassWanted_frames true))
  | internal =>
    have noted : Frames L s (if o = .done ∧ s.driftOut q.handle = true then s.setDeviceNotice .home else s) :=
      .ite (setDeviceNotice_frames _) (.refl s)
    exact .ite noted (noted.trans (setPassWanted_frames true))

theorem satisfyRevisit_frames (f : Fix) : Frames L s (s.satisfyRevisit h f) := by
  unfold State.satisfyRevisit
  split
  · exact .after_modify (scheduleAfter_frames _ _) fun _ => rfl
  · exact .refl s

theorem driftCheck_frames (f : Fix) : Frames L s (s.driftCheck h f) := by
  unfold State.driftCheck
  split
  · exact .refl s
  · split
    · exact .refl s
    · exact .ite (.after_modify (setRecordNotice_frames _) fun _ => rfl) (modifyRecord_frames fun _ => rfl)

theorem fixToScheduler_frames (f : Fix) : Frames L s (s.fixToScheduler h f) := (satisfyRevisit_frames f).trans (driftCheck_frames f)

theorem tableWritesFix_frames (r : Record) (f : Fix) : Frames L s (s.tableWritesFix h r f) := by
  have written : Frames L s ((s.modifyRecord h fun r' => r'.writeFix f (if r.isFixed = true then none else motionOf r.fix f)).setRecordNotice .fix h) :=
    .after_modify (setRecordNotice_frames _) fun _ => rfl
  exact .ite (written.trans (setRecordNotice_frames _)) written

theorem deliverFix_frames (f : Fix) : Frames L s (s.deliverFix h f) := by
  unfold State.deliverFix
  split
  · exact .refl s
  · have written (r : Record) : Frames L s (if r.hold = true ∧ r.fixPending = true then s.modifyRecord h fun r => { r with fixOverrun := true }
        else s.tableWritesFix h r f) := .ite (modifyRecord_frames fun _ => rfl) (tableWritesFix_frames r f)
    exact .ite ((written _).trans (fixToScheduler_frames f)) (written _)

theorem deliverVerdict_frames (v : Verdict) : Frames L s (s.deliverVerdict h v) := by
  unfold State.deliverVerdict
  cases v with
  | ambiguity => exact .after_modify (setRecordNotice_frames _) fun _ => rfl
  | falseReturn => exact countFalseReturn_frames
  | none => exact .refl s
  | capture => exact .refl s

/-! ### The end of a request's stay -/

/-- A loose request's record made DORMANT. -/
theorem toDormant_frames (loose : ∃ q ∈ L, q.handle = h) : Frames L s (s.toDormant h o) := by
  obtain ⟨b, dormant⟩ := toDormant_eq (t := s) (h := h) o
  rw [dormant]
  exact (modifyLoose_frames _ loose).trans (setPassWanted_frames b)

theorem stateOf_toDormant (live : s.stateOf h = some st) : (s.toDormant h o).stateOf h = some .dormant := by
  obtain ⟨b, dormant⟩ := toDormant_eq (t := s) (h := h) o
  obtain ⟨r, held, -⟩ := stateOf_eq_some.mp live
  have state : (s.modifyRecord h fun r => { r with state := .dormant, outcome := o }).stateOf h = some .dormant := by
    rw [stateOf_modified, if_pos rfl, held, Option.map_some]
  rw [dormant]
  exact state

theorem Placed.toDormant (p : Placed (q :: L) s) (o : EndOutcome) :
    Placed (q :: L) (s.toDormant q.handle o) ∧ (s.toDormant q.handle o).stateOf q.handle = some .dormant := by
  obtain ⟨st, live⟩ := p.looseLive q List.mem_cons_self
  exact ⟨p.frames (toDormant_frames ⟨q, List.mem_cons_self, rfl⟩) (toDormant_keeps s _ _), stateOf_toDormant live⟩

/-- The entries of one slot of the list are one. -/
theorem entry_unique (list : ListLegal s) {e y : RevisitEntry} (mem : e ∈ s.scheduler.entries) (found : s.entryAt e.handle.slot = some y) : y = e :=
  Option.some.inj (found.symm.trans (entryAt_of_mem s list.2.1 mem))

/-- An entry placed for a slot is the slot's only one. -/
theorem placeEntry_only {e y : RevisitEntry} (mem : e ∈ (s.placeEntry y).scheduler.entries) (slot : e.handle.slot = y.handle.slot) : e = y := by
  rcases mem_insertEntry.mp mem with same | old
  · exact same
  · exact absurd slot (mem_withoutEntry.mp old).2

theorem miss_told (live : s.stateOf h = some st) (e : RevisitEntry) (mem : e ∈ (s.miss h).scheduler.entries) (slot : e.handle.slot = h.slot) :
    e.status ≠ .offered := by
  obtain ⟨r, held, -⟩ := stateOf_eq_some.mp live
  rw [State.miss, held] at mem
  rw [placeEntry_only mem slot]
  simp

/-- A REVISIT request's end reported with one of these outcomes leaves no revisit of its record OFFERED. -/
theorem revisitReport_told (list : ListLegal s) (live : s.stateOf h = some st) (ends : o = .lost ∨ o = .fault ∨ o = .released ∨ o = .parked)
    (e : RevisitEntry) (mem : e ∈ (s.revisitReport h o).scheduler.entries) (slot : e.handle.slot = h.slot) : e.status ≠ .offered := by
  unfold State.revisitReport at mem
  cases found : s.entryAt h.slot with
  | none =>
    rw [found] at mem
    exact absurd slot (entryAt_eq_none_iff.mp found e mem)
  | some y =>
    rw [found] at mem
    dsimp only at mem
    by_cases offered : y.status = .offered
    · rw [if_pos offered] at mem
      rcases ends with rfl | rfl | rfl | rfl
      · exact miss_told live e mem slot
      · exact miss_told live e mem slot
      · obtain ⟨r, held, -⟩ := stateOf_eq_some.mp live
        rw [held] at mem
        rw [placeEntry_only mem slot]
        simp
      · obtain ⟨z, -, rfl⟩ := List.mem_map.mp mem
        by_cases here : z.handle.slot = h.slot
        · rw [if_pos here]
          simp
        · rw [if_neg here] at slot
          exact absurd slot here
    · rw [if_neg offered] at mem
      have one := entry_unique list mem (slot.symm ▸ found)
      exact one ▸ offered

theorem reportEnd_told (list : ListLegal s) (live : s.stateOf q.handle = some st) (revisit : q.origin = .revisit)
    (ends : o = .lost ∨ o = .fault ∨ o = .released ∨ o = .parked) (e : RevisitEntry) (mem : e ∈ (s.reportEnd q o).scheduler.entries)
    (same : e.handle = q.handle) : e.status ≠ .offered := by
  refine revisitReport_told list live ends e ?_ (congrArg Handle.slot same)
  rw [State.reportEnd, revisit] at mem
  dsimp only at mem
  split at mem
  · exact mem
  · exact mem

/-- A loose request whose record is DORMANT, its end reported: nothing is loose any more. -/
theorem Placed.reported (p : Placed (q :: L) s) (asleep : s.stateOf q.handle = some .dormant)
    (ends : (o = .lost ∨ o = .fault ∨ o = .released ∨ o = .parked) ∨ ∀ e ∈ s.scheduler.entries, e.handle = q.handle → e.status ≠ .offered) :
    Placed L (s.reportEnd q o) := by
  have frames (M : List Request) : Frames M s (s.reportEnd q o) := reportEnd_frames q o
  have placed := p.frames (frames _) (reportEnd_keeps s q o)
  refine placed.drop (fun st state => ?_) fun e mem same => ?_
  · exact Option.some.inj (state.symm.trans (((frames []).states q.handle nofun).trans asleep))
  · by_cases revisit : q.origin = .revisit
    · rcases ends with ends | settled
      · exact reportEnd_told p.list asleep revisit ends e mem same
      · intro is
        obtain ⟨y, memY, sameY, isY⟩ := (frames []).offered e mem is
        exact settled y memY (sameY.trans same) isY
    · exact placed.not_offered revisit e mem same

/-- The entries of a record made DORMANT are as they were. -/
theorem told_toDormant (told : ∀ e ∈ s.scheduler.entries, e.handle = q.handle → e.status ≠ .offered) (o : EndOutcome) (e : RevisitEntry)
    (mem : e ∈ (s.toDormant q.handle o).scheduler.entries) (same : e.handle = q.handle) : e.status ≠ .offered := by
  intro is
  obtain ⟨y, memY, sameY, isY⟩ := (toDormant_frames (L := [q]) ⟨q, List.mem_cons_self, rfl⟩).offered e mem is
  exact told y memY (sameY.trans same) isY

/-- A loose request's record made DORMANT, and the end reported. -/
theorem Placed.ended (p : Placed (q :: L) s)
    (ends : (o = .lost ∨ o = .fault ∨ o = .released ∨ o = .parked) ∨ ∀ e ∈ s.scheduler.entries, e.handle = q.handle → e.status ≠ .offered) :
    Placed L ((s.toDormant q.handle o).reportEnd q o) := by
  obtain ⟨placed, asleep⟩ := p.toDormant o
  exact placed.reported asleep (ends.imp_right fun told => told_toDormant told o)

/-- A loose request without a revisit OFFERED is dropped where its record is made DORMANT. -/
theorem Placed.dropped (p : Placed (q :: L) s) (told : ∀ e ∈ s.scheduler.entries, e.handle = q.handle → e.status ≠ .offered) (o : EndOutcome) :
    Placed L (s.toDormant q.handle o) := by
  obtain ⟨placed, asleep⟩ := p.toDormant o
  exact placed.drop (fun st state => Option.some.inj (state.symm.trans asleep)) (told_toDormant told o)

end Sys2Proof.Machine
end


section
/-! Requests taken from the queue, the stack and the grant, and put into them (R79, R80, R81). -/

namespace Sys2Proof.Machine

variable {s t u : State} {h k : Handle} {q x : Request} {st st' : RecState} {L : List Request} {r : Record} {o : EndOutcome} {e : QueueEntry} {a : Arbiter}

/-! ### The bounds of the collections -/

theorem Bounded.withGrant (b : Bounded a) (g : Option Request) : Bounded { a with grant := g } :=
  ⟨b.room, b.depth, b.queueSlots, b.stackSlots, b.arrivals, b.below, b.counter⟩

theorem Bounded.withQueue (b : Bounded a) {l : List QueueEntry} (sub : l.Sublist a.queue) : Bounded { a with queue := l } :=
  ⟨sub.length_le.trans b.room, b.depth, b.queueSlots.sublist (sub.map _), b.stackSlots, b.arrivals.sublist (sub.map _),
    fun e mem => b.below e (sub.subset mem), b.counter⟩

theorem Bounded.withStack (b : Bounded a) {l : List Request} (depth : l.length ≤ 4) (slots : (l.map (·.handle.slot)).Nodup) :
    Bounded { a with stack := l } := ⟨b.room, depth, b.queueSlots, slots, b.arrivals, b.below, b.counter⟩

/-- The entries of one slot of the queue are one. -/
theorem Bounded.queue_unique (b : Bounded a) {e y : QueueEntry} (memE : e ∈ a.queue) (memY : y ∈ a.queue)
    (same : e.request.handle.slot = y.request.handle.slot) : e = y :=
  List.inj_on_of_nodup_map b.queueSlots memE memY same

/-! ### Taken out -/

theorem mem_withoutQueued {i : Fin 48} {l : List QueueEntry} : e ∈ withoutQueued i l ↔ e ∈ l ∧ e.request.handle.slot ≠ i := by simp [withoutQueued]

theorem length_withoutQueued_lt {l : List QueueEntry} (mem : e ∈ l) : (withoutQueued e.request.handle.slot l).length < l.length :=
  List.length_filter_lt_length_iff_exists.mpr ⟨e, mem, by simp⟩

/-- A queue entry taken out: its request is loose. -/
theorem Placed.takeQueued (p : Placed L s) (mem : e ∈ s.arbiter.queue) :
    Placed (e.request :: L) (s.setQueue (withoutQueued e.request.handle.slot s.arbiter.queue)) := by
  have stood : Stands s e.request .queued := .queued (List.mem_map.mpr ⟨e, mem, rfl⟩)
  refine p.takeOut stood ?_ ?_ (fun _ => rfl) rfl rfl ⟨p.aimed.context, p.aimed.target⟩ (p.bounds.withQueue List.filter_sublist) (setQueue_keeps s _)
  · rintro x st (waits | waits | ⟨granted, pursued⟩)
    · obtain ⟨y, left, rfl⟩ := List.mem_map.mp waits
      obtain ⟨old, other⟩ := mem_withoutQueued.mp left
      exact ⟨.queued (List.mem_map.mpr ⟨y, old, rfl⟩), other⟩
    · exact ⟨.stacked waits, p.apart (.stacked waits) stood nofun⟩
    · exact ⟨.granted granted pursued, p.apart (.granted granted pursued) stood nofun⟩
  · rintro x st (waits | waits | ⟨granted, pursued⟩)
    · obtain ⟨y, old, rfl⟩ := List.mem_map.mp waits
      by_cases same : y.request.handle.slot = e.request.handle.slot
      · exact .inr (congrArg QueueEntry.request (p.bounds.queue_unique old mem same))
      · exact .inl (.queued (List.mem_map.mpr ⟨y, mem_withoutQueued.mpr ⟨old, same⟩, rfl⟩))
    · exact .inl (.stacked waits)
    · exact .inl (.granted granted pursued)

/-- A stack entry taken out: its request is loose. -/
theorem Placed.takeStacked (p : Placed L s) {l : List Request} (perm : s.arbiter.stack.Perm (q :: l)) : Placed (q :: L) (s.setStack l) := by
  have stood : Stands s q .suspended := .stacked (perm.mem_iff.mpr List.mem_cons_self)
  have slots : ((q :: l).map (·.handle.slot)).Nodup := (perm.map _).nodup_iff.mp p.bounds.stackSlots
  obtain ⟨new, rest⟩ := List.nodup_cons.mp slots
  have depth : l.length ≤ 4 := by
    have := perm.length_eq
    have := p.bounds.depth
    rw [List.length_cons] at *
    omega
  refine p.takeOut stood ?_ ?_ (fun _ => rfl) rfl rfl ⟨p.aimed.context, p.aimed.target⟩ (p.bounds.withStack depth rest) (setStack_keeps s _)
  · rintro x st (waits | waits | ⟨granted, pursued⟩)
    · exact ⟨.queued waits, p.apart (.queued waits) stood nofun⟩
    · exact ⟨.stacked (perm.mem_iff.mpr (List.mem_cons_of_mem _ waits)), fun same => new (List.mem_map.mpr ⟨x, waits, same⟩)⟩
    · exact ⟨.granted granted pursued, p.apart (.granted granted pursued) stood nofun⟩
  · rintro x st (waits | waits | ⟨granted, pursued⟩)
    · exact .inl (.queued waits)
    · rcases List.mem_cons.mp (perm.mem_iff.mp waits) with rfl | left
      · exact .inr rfl
      · exact .inl (.stacked left)
    · exact .inl (.granted granted pursued)

/-- The stack without the entry of a slot, and that entry. -/
theorem perm_withoutStacked {l : List Request} (nodup : (l.map (·.handle.slot)).Nodup) (mem : q ∈ l) : l.Perm (q :: withoutStacked q.handle.slot l) := by
  induction l with
  | nil => cases mem
  | cons y rest ih =>
    obtain ⟨new, others⟩ := List.nodup_cons.mp nodup
    by_cases same : y.handle.slot = q.handle.slot
    · have one : q = y := by
        rcases List.mem_cons.mp mem with is | old
        · exact is
        · exact absurd (List.mem_map.mpr ⟨q, old, same.symm⟩) new
      subst one
      have kept : withoutStacked q.handle.slot (q :: rest) = rest := by
        rw [withoutStacked, List.filter_cons_of_neg (by simp)]
        refine List.filter_eq_self.mpr fun x old => ?_
        have : x.handle.slot ≠ q.handle.slot := fun is => new (List.mem_map.mpr ⟨x, old, is⟩)
        simpa using this
      rw [kept]
    · have old : q ∈ rest := (List.mem_cons.mp mem).resolve_left fun is => same (is ▸ rfl)
      have kept : withoutStacked q.handle.slot (y :: rest) = y :: withoutStacked q.handle.slot rest := List.filter_cons_of_pos (by simpa using same)
      rw [kept]
      exact ((ih others old).cons y).trans (List.Perm.swap q y _)

theorem stateOf_endPursuit (b : Bool) : (s.endPursuit b).stateOf h = s.stateOf h := by
  unfold State.endPursuit
  split
  · rfl
  · split
    · exact stateOf_modified_same (s := (s.setContext none).withdrawRange) (f := fun r => { r with lockLatch := false }) fun _ => rfl
    · rfl

theorem pursuit_endPursuit (b : Bool) : (s.endPursuit b).pursuit = none := by
  unfold State.endPursuit
  split
  · assumption
  · split
    · exact (modifyRecord_fields _ _ _).2.2.1
    · rfl

/-- The grant given up with its pursuit: its request is loose. -/
theorem Placed.takeGrant (p : Placed L s) (granted : s.arbiter.grant = some q) (b : Bool) : Placed (q :: L) ((s.endPursuit b).setGrant none) := by
  obtain ⟨c, pursued⟩ := Option.isSome_iff_exists.mp (p.aimed.context.trans (congrArg Option.isSome granted))
  have stood : Stands s q (.active c.stage) := .granted granted pursued
  obtain ⟨arbiter, scheduler, -⟩ := endPursuit_fields (s := s) b
  have ended := pursuit_endPursuit (s := s) b
  have states (h : Handle) : ((s.endPursuit b).setGrant none).stateOf h = s.stateOf h := stateOf_endPursuit b
  have keeps := (endPursuit_keeps s b).trans (setGrant_keeps _ none)
  have left : ((s.endPursuit b).setGrant none).arbiter = { s.arbiter with grant := none } := by
    rw [State.setGrant, arbiter]
  have ended' : ((s.endPursuit b).setGrant none).pursuit = none := ended
  have entries : ((s.endPursuit b).setGrant none).scheduler.entries = s.scheduler.entries := congrArg Scheduler.entries scheduler
  generalize (s.endPursuit b).setGrant none = t at states keeps left ended' entries
  refine p.takeOut stood ?_ ?_ states (by rw [left]) entries ⟨by rw [ended', left]; rfl, fun g c granted => ?_⟩ (left ▸ p.bounds.withGrant none) keeps
  · rintro x st (waits | waits | ⟨granted', pursued'⟩)
    · rw [left] at waits
      exact ⟨.queued waits, p.apart (.queued waits) stood nofun⟩
    · rw [left] at waits
      exact ⟨.stacked waits, p.apart (.stacked waits) stood nofun⟩
    · rw [left] at granted'
      cases granted'
  · rintro x st (waits | waits | ⟨granted', pursued'⟩)
    · exact .inl (.queued (left ▸ waits))
    · exact .inl (.stacked (left ▸ waits))
    · exact .inr (Option.some.inj (granted'.symm.trans granted))
  · rw [left] at granted
    cases granted

/-! ### Put in -/

/-- A record's state written under a live handle. -/
theorem stateOf_setRecordState_self (live : s.stateOf h = some st') : (s.setRecordState h st).stateOf h = some st := by
  obtain ⟨r, held, -⟩ := stateOf_eq_some.mp live
  rw [State.setRecordState, stateOf_modified, if_pos rfl, held, Option.map_some]

theorem stateOf_setRecordState_other (other : k ≠ h) : (s.setRecordState h st).stateOf k = s.stateOf k := by
  rw [State.setRecordState, stateOf_modified, if_neg other]

/-- The number of entries with a lower arrival number orders the entries as their numbers do. -/
theorem rank_lt {l : List QueueEntry} {y z : QueueEntry} (memY : y ∈ l) (lower : y.arrival < z.arrival) :
    (l.filter fun x => decide (x.arrival < y.arrival)).length < (l.filter fun x => decide (x.arrival < z.arrival)).length := by
  have inner : l.filter (fun x => decide (x.arrival < y.arrival))
      = (l.filter fun x => decide (x.arrival < z.arrival)).filter fun x => decide (x.arrival < y.arrival) := by
    rw [List.filter_filter]
    refine List.filter_congr fun x _ => ?_
    by_cases below : x.arrival < y.arrival
    · simp [below, below.trans lower]
    · simp [below]
  rw [inner]
  exact List.length_filter_lt_length_iff_exists.mpr ⟨y, List.mem_filter.mpr ⟨memY, decide_eq_true lower⟩, by simp⟩

theorem rank_lt_length {l : List QueueEntry} (mem : e ∈ l) : (l.filter fun x => decide (x.arrival < e.arrival)).length < l.length :=
  List.length_filter_lt_length_iff_exists.mpr ⟨e, mem, by simp⟩

theorem renumber_nodup {l : List QueueEntry} (nodup : (l.map (·.arrival)).Nodup) : ((renumber l).map (·.arrival)).Nodup := by
  rw [renumber, List.map_map]
  refine List.pairwise_map.mpr ((List.pairwise_map.mp nodup).imp_of_mem fun {y z} memY memZ other same => ?_)
  rcases Nat.lt_or_gt_of_ne other with lower | lower
  · exact absurd same (Nat.ne_of_lt (rank_lt memY lower))
  · exact absurd same (Nat.ne_of_gt (rank_lt memZ lower))

theorem renumber_below {l : List QueueEntry} (mem : e ∈ renumber l) : e.arrival < l.length := by
  obtain ⟨y, old, rfl⟩ := List.mem_map.mp mem
  exact rank_lt_length old

theorem requests_renumber (l : List QueueEntry) : (renumber l).map (·.request) = l.map (·.request) := by
  rw [renumber, List.map_map]
  rfl

/-- The part with a queue and an arrival counter written. -/
def queueWritten (s : State) (l : List QueueEntry) (n : Nat) : State := { s with arbiter := { s.arbiter with queue := l, arrivalCounter := n } }

/-- A new entry goes behind the others, above their arrival numbers. -/
theorem makeEntry_eq (b : Bounded s.arbiter) (room : s.arbiter.queue.length < 12) :
    ∃ l n, s.makeEntry q = queueWritten s (l ++ [{ request := q, arrival := n }]) (n + 1) ∧ l.map (·.request) = s.arbiter.queue.map (·.request)
      ∧ (l.map (·.arrival)).Nodup ∧ (∀ e ∈ l, e.arrival < n) ∧ n + 1 ≤ 65535 := by
  by_cases wraps : s.arbiter.arrivalCounter = 65535
  · refine ⟨renumber s.arbiter.queue, s.arbiter.queue.length, ?_, requests_renumber _, renumber_nodup b.arrivals,
      fun e mem => renumber_below mem, by omega⟩
    rw [State.makeEntry, if_pos wraps]
    rfl
  · refine ⟨s.arbiter.queue, s.arbiter.arrivalCounter, ?_, rfl, b.arrivals, b.below, ?_⟩
    · rw [State.makeEntry, if_neg wraps]
      rfl
    · have := b.counter
      omega

theorem Bounded.enqueued (b : Bounded a) {l : List QueueEntry} {n : Nat} (same : l.map (·.request) = a.queue.map (·.request))
    (nodup : (l.map (·.arrival)).Nodup) (below : ∀ e ∈ l, e.arrival < n) (counter : n + 1 ≤ 65535) (room : a.queue.length < 12)
    (new : ∀ y ∈ a.queue, y.request.handle.slot ≠ q.handle.slot) :
    Bounded { a with queue := l ++ [{ request := q, arrival := n }], arrivalCounter := n + 1 } := by
  have length : l.length = a.queue.length := by rw [← List.length_map (f := QueueEntry.request), same, List.length_map]
  have slots : l.map (fun y => y.request.handle.slot) = a.queue.map fun y => y.request.handle.slot := by
    have := congrArg (List.map fun y : Request => y.handle.slot) same
    rwa [List.map_map, List.map_map] at this
  refine ⟨by rw [List.length_append, length]; exact room, b.depth, ?_, b.stackSlots, ?_, fun e mem => ?_, counter⟩
  · rw [List.map_append, slots, List.nodup_append]
    refine ⟨b.queueSlots, List.nodup_singleton _, fun i memI j memJ same => ?_⟩
    obtain ⟨y, memY, rfl⟩ := List.mem_map.mp memI
    exact new y memY (same.trans (List.mem_singleton.mp memJ))
  · rw [List.map_append, List.nodup_append]
    refine ⟨nodup, List.nodup_singleton _, fun i memI j memJ same => ?_⟩
    obtain ⟨y, memY, rfl⟩ := List.mem_map.mp memI
    have := below y memY
    rw [List.mem_singleton.mp memJ] at same
    exact absurd same (Nat.ne_of_lt this)
  · rcases List.mem_append.mp mem with old | new
    · exact Nat.lt_succ_of_lt (below e old)
    · rw [List.mem_singleton.mp new]
      exact Nat.lt_succ_self n

/-- What an entry of the queue leaves of the arbiter. -/
theorem enqueue_arbiter (b : Bounded s.arbiter) (room : s.arbiter.queue.length < 12) :
    ∃ l n, (s.enqueue q).arbiter = { s.arbiter with queue := l ++ [{ request := q, arrival := n }], arrivalCounter := n + 1 }
      ∧ l.map (·.request) = s.arbiter.queue.map (·.request) := by
  obtain ⟨l, n, made, same, -⟩ := makeEntry_eq (q := q) b room
  refine ⟨l, n, ?_, same⟩
  rw [State.enqueue, made]
  exact (modifyRecord_fields _ _ _).2.2.2.1

/-- A loose request enters the queue. -/
theorem Placed.enqueue (p : Placed (q :: L) s) (room : s.arbiter.queue.length < 12) : Placed L (s.enqueue q) := by
  obtain ⟨l, n, made, same, nodup, below, counter⟩ := makeEntry_eq (q := q) p.bounds room
  obtain ⟨st, live⟩ := p.looseLive q List.mem_cons_self
  obtain ⟨-, -, pursuit, arbiter, scheduler, -⟩ :=
    modifyRecord_fields (queueWritten s (l ++ [{ request := q, arrival := n }]) (n + 1)) q.handle fun r => { r with state := .queued }
  have keeps := enqueue_keeps s q
  have live' : (queueWritten s (l ++ [{ request := q, arrival := n }]) (n + 1)).stateOf q.handle = some st := live
  have here := stateOf_setRecordState_self (st := .queued) live'
  have others (h : Handle) (other : h ≠ q.handle) := stateOf_setRecordState_other (s := queueWritten s (l ++ [{ request := q, arrival := n }]) (n + 1))
    (st := .queued) other
  rw [State.enqueue, made] at keeps ⊢
  rw [State.setRecordState] at keeps here others ⊢
  generalize (queueWritten s (l ++ [{ request := q, arrival := n }]) (n + 1)).modifyRecord q.handle _ = t at *
  have bounds := p.bounds.enqueued (q := q) same nodup below counter room fun y mem =>
    p.looseApart q List.mem_cons_self y.request .queued (.queued (List.mem_map.mpr ⟨y, mem, rfl⟩))
  have requests : t.arbiter.queue.map (·.request) = s.arbiter.queue.map (·.request) ++ [q] := by
    rw [arbiter, ← same]
    exact List.map_append
  have grant : t.arbiter.grant = s.arbiter.grant := by rw [arbiter]; rfl
  have stack : t.arbiter.stack = s.arbiter.stack := by rw [arbiter]; rfl
  have pursuit' : t.pursuit = s.pursuit := pursuit
  refine p.putIn (st := .queued) (.queued (by rw [requests]; simp)) ?_ ?_ (.inl nofun) here others (by rw [arbiter]; rfl)
    (congrArg Scheduler.entries scheduler) ⟨by rw [pursuit', grant]; exact p.aimed.context, by rw [pursuit', grant]; exact p.aimed.target⟩
    (arbiter ▸ bounds) keeps
  · rintro x st (waits | waits | ⟨granted, pursued⟩)
    · exact .queued (by rw [requests]; exact List.mem_append_left _ waits)
    · exact .stacked (stack ▸ waits)
    · exact .granted (grant ▸ granted) (pursuit' ▸ pursued)
  · rintro x st (waits | waits | ⟨granted, pursued⟩)
    · rw [requests] at waits
      rcases List.mem_append.mp waits with old | new
      · exact .inl (.queued old)
      · exact .inr ⟨List.mem_singleton.mp new, rfl⟩
    · exact .inl (.stacked (stack ▸ waits))
    · exact .inl (.granted (grant ▸ granted) (pursuit' ▸ pursued))

/-- A loose request that is not a REVISIT one goes on top of the stack. -/
theorem Placed.pushed (p : Placed (q :: L) s) (other : q.origin ≠ .revisit) (room : s.arbiter.stack.length < 4) :
    Placed L ((s.setStack (q :: s.arbiter.stack)).setRecordState q.handle .suspended) := by
  obtain ⟨st, live⟩ := p.looseLive q List.mem_cons_self
  obtain ⟨-, -, pursuit, arbiter, scheduler, -⟩ :=
    modifyRecord_fields (s.setStack (q :: s.arbiter.stack)) q.handle fun r => { r with state := .suspended }
  have keeps := (setStack_keeps s (q :: s.arbiter.stack)).trans (setRecordState_keeps _ q.handle .suspended)
  have live' : (s.setStack (q :: s.arbiter.stack)).stateOf q.handle = some st := live
  have here := stateOf_setRecordState_self (st := .suspended) live'
  have others (h : Handle) (apart : h ≠ q.handle) := stateOf_setRecordState_other (s := s.setStack (q :: s.arbiter.stack)) (st := .suspended) apart
  rw [State.setRecordState] at keeps here others ⊢
  generalize (s.setStack (q :: s.arbiter.stack)).modifyRecord q.handle _ = t at *
  have slots : ((q :: s.arbiter.stack).map (·.handle.slot)).Nodup := by
    refine List.nodup_cons.mpr ⟨fun mem => ?_, p.bounds.stackSlots⟩
    obtain ⟨y, waits, same⟩ := List.mem_map.mp mem
    exact p.looseApart q List.mem_cons_self y .suspended (.stacked waits) same
  have bounds := p.bounds.withStack (l := q :: s.arbiter.stack) room slots
  have grant : t.arbiter.grant = s.arbiter.grant := by rw [arbiter]; rfl
  have stack : t.arbiter.stack = q :: s.arbiter.stack := by rw [arbiter]; rfl
  have queue : t.arbiter.queue = s.arbiter.queue := by rw [arbiter]; rfl
  have pursuit' : t.pursuit = s.pursuit := pursuit
  refine p.putIn (st := .suspended) (.stacked (by rw [stack]; exact List.mem_cons_self)) ?_ ?_ (.inr other) here others (by rw [arbiter]; rfl)
    (congrArg Scheduler.entries scheduler) ⟨by rw [pursuit', grant]; exact p.aimed.context, by rw [pursuit', grant]; exact p.aimed.target⟩
    (arbiter ▸ bounds) keeps
  · rintro x st (waits | waits | ⟨granted, pursued⟩)
    · exact .queued (queue ▸ waits)
    · exact .stacked (by rw [stack]; exact List.mem_cons_of_mem _ waits)
    · exact .granted (grant ▸ granted) (pursuit' ▸ pursued)
  · rintro x st (waits | waits | ⟨granted, pursued⟩)
    · exact .inl (.queued (queue ▸ waits))
    · rw [stack] at waits
      rcases List.mem_cons.mp waits with rfl | old
      · exact .inr ⟨rfl, rfl⟩
      · exact .inl (.stacked old)
    · exact .inl (.granted (grant ▸ granted) (pursuit' ▸ pursued))

/-- A loose request takes the free beam. -/
theorem Placed.startSlew (p : Placed (q :: L) s) (free : s.arbiter.grant = none) (d : Direction) : Placed L (s.startSlew q d) := by
  obtain ⟨st, live⟩ := p.looseLive q List.mem_cons_self
  have keeps := startSlew_keeps s q d
  rw [State.startSlew, State.setRecordState] at *
  obtain ⟨-, -, pursuit, arbiter, scheduler, -⟩ := modifyRecord_fields (((s.setGrant (some q)).setContext (some (Context.fresh q d))).sendMove d) q.handle
    fun r => { r with state := .active .slewing }
  have live' : (((s.setGrant (some q)).setContext (some (Context.fresh q d))).sendMove d).stateOf q.handle = some st := live
  have here := stateOf_setRecordState_self (st := .active .slewing) live'
  have others (h : Handle) (apart : h ≠ q.handle) := stateOf_setRecordState_other
    (s := ((s.setGrant (some q)).setContext (some (Context.fresh q d))).sendMove d) (st := .active .slewing) apart
  rw [State.setRecordState] at here others
  generalize (((s.setGrant (some q)).setContext (some (Context.fresh q d))).sendMove d).modifyRecord q.handle _ = t at *
  have grant : t.arbiter.grant = some q := by rw [arbiter]; rfl
  have stack : t.arbiter.stack = s.arbiter.stack := by rw [arbiter]; rfl
  have queue : t.arbiter.queue = s.arbiter.queue := by rw [arbiter]; rfl
  have pursuit' : t.pursuit = some (Context.fresh q d) := pursuit
  refine p.putIn (st := .active .slewing) (.granted grant pursuit') ?_ ?_ (.inl nofun) here others (by rw [arbiter]; rfl)
    (congrArg Scheduler.entries scheduler) ⟨by rw [pursuit', grant]; rfl, fun g c granted pursued => ?_⟩ (arbiter ▸ p.bounds.withGrant (some q)) keeps
  · rintro x st (waits | waits | ⟨granted, -⟩)
    · exact .queued (queue ▸ waits)
    · exact .stacked (stack ▸ waits)
    · exact absurd granted (by rw [free]; exact nofun)
  · rintro x st (waits | waits | ⟨granted, pursued⟩)
    · exact .inl (.queued (queue ▸ waits))
    · exact .inl (.stacked (stack ▸ waits))
    · obtain rfl := Option.some.inj (grant.symm.trans granted)
      obtain rfl := Option.some.inj (pursuit'.symm.trans pursued)
      exact .inr ⟨rfl, rfl⟩
  · obtain rfl := Option.some.inj (grant.symm.trans granted)
    obtain rfl := Option.some.inj (pursuit'.symm.trans pursued)
    exact ⟨rfl, rfl⟩

end Sys2Proof.Machine
end


section
/-! Selection, the grant, the preemption and the ends of a request keep the beam in agreement and leave nothing undone (R88 to R92, R97). -/

namespace Sys2Proof.Machine

variable {s t u : State} {h k : Handle} {q x g : Request} {st st' : RecState} {L : List Request} {r : Record} {o : EndOutcome} {e : QueueEntry} {a : Arbiter}

/-! ### Nothing left undone -/

/-- With an empty grant nothing waits, and no queued priority is above the grant's (R88, R89). -/
structure Topped (a : Arbiter) : Prop where
  used : a.grant = none → a.queue = [] ∧ a.stack = []
  top : ∀ g, a.grant = some g → ∀ e ∈ a.queue, e.request.priority ≤ g.priority

/-- The beam in agreement, with nothing loose and nothing undone. -/
structure Beam (s : State) : Prop where
  placed : Placed [] s
  topped : Topped s.arbiter

theorem Beam.frames (b : Beam s) (f : Frames [] s t) (keeps : Keeps s t) : Beam t := ⟨b.placed.frames f keeps, f.arbiter ▸ b.topped⟩

theorem Beam.ite {c : Prop} [Decidable c] (a : Beam s) (b : Beam t) : Beam (if c then s else t) := by
  split <;> assumption

theorem Topped.of_grant (granted : a.grant = some g) (top : ∀ e ∈ a.queue, e.request.priority ≤ g.priority) : Topped a where
  used free := by
    rw [granted] at free
    cases free
  top g' granted' := Option.some.inj (granted.symm.trans granted') ▸ top

/-- Nothing waits PARKED. -/
theorem Placed.topped_of_parked (p : Placed L s) (parked : s.arbiter.runMode = .parked) (free : s.arbiter.grant = none) : Topped s.arbiter where
  used _ := by
    obtain ⟨-, nothing⟩ := p.idle parked
    refine ⟨List.eq_nil_iff_forall_not_mem.mpr fun e mem => ?_, List.eq_nil_iff_forall_not_mem.mpr fun q mem => nothing q _ (.stacked mem)⟩
    exact nothing e.request _ (.queued (List.mem_map.mpr ⟨e, mem, rfl⟩))
  top g granted := by
    rw [free] at granted
    cases granted

/-! ### A request closed with the beam free -/

theorem toDormant_arbiter : (s.toDormant h o).arbiter = s.arbiter :=
  (toDormant_frames (L := [{ handle := h, origin := .internal, priority := 0, aim := none }]) ⟨_, List.mem_cons_self, rfl⟩).arbiter

theorem reportEnd_arbiter : (s.reportEnd q o).arbiter = s.arbiter := (reportEnd_frames (L := []) q o).arbiter

/-- A loose request closed: its record DORMANT, its end reported. -/
theorem Placed.closed (p : Placed (q :: L) s) (free : s.arbiter.grant = none)
    (ends : (o = .lost ∨ o = .fault ∨ o = .released ∨ o = .parked) ∨ ∀ e ∈ s.scheduler.entries, e.handle = q.handle → e.status ≠ .offered) :
    Placed L (s.closeRequest q o) ∧ (s.closeRequest q o).arbiter = s.arbiter := by
  have placed := p.ended ends
  have same : ((s.toDormant q.handle o).reportEnd q o).arbiter = s.arbiter := reportEnd_arbiter.trans toDormant_arbiter
  rw [State.closeRequest, setGrant_none_same free]
  generalize (s.toDormant q.handle o).reportEnd q o = t at placed same
  split
  · exact ⟨placed.frames (setDeviceNotice_frames _) (setDeviceNotice_keeps _ _), same⟩
  · exact ⟨placed, same⟩

theorem Placed.lostAtGrant (p : Placed (q :: L) s) (free : s.arbiter.grant = none) :
    Placed L (s.lostAtGrant q) ∧ (s.lostAtGrant q).arbiter = s.arbiter := by
  have noted := p.frames (setRecordNotice_frames (h := q.handle) .lost) (setRecordNotice_keeps _ _ _)
  have same : (s.setRecordNotice .lost q.handle).arbiter = s.arbiter := (setRecordNotice_frames (L := []) .lost).arbiter
  obtain ⟨placed, still⟩ := noted.closed (o := .lost) (same ▸ free) (.inl (.inl rfl))
  exact ⟨placed, still.trans same⟩

/-! ### Selection -/

/-- The winner of a selection is taken out, and nothing left in the queue is above it. -/
theorem Placed.picked (p : Placed L s) (picked : s.pickWinner = some (q, t)) :
    Placed (q :: L) t ∧ t.arbiter.grant = s.arbiter.grant ∧ (∀ e ∈ t.arbiter.queue, e.request.priority ≤ q.priority)
      ∧ t.arbiter.queue.length + t.arbiter.stack.length < s.arbiter.queue.length + s.arbiter.stack.length := by
  rcases pickWinner_cases s picked with ⟨rest, stack, rfl, lower⟩ | ⟨e, best, rfl, rfl, -⟩
  · refine ⟨p.takeStacked (.of_eq stack), rfl, fun e mem => ?_, ?_⟩
    · have mem' : e ∈ s.arbiter.queue := mem
      obtain ⟨b, best⟩ := Option.isSome_iff_exists.mp (show (bestEntry s.arbiter.queue).isSome = true by
        rw [bestEntry_isSome, List.isEmpty_eq_false_iff_exists_mem.mpr ⟨e, mem'⟩]
        rfl)
      exact (bestEntry_priority best e mem').trans (lower b best)
    · have : (s.setStack rest).arbiter.stack.length < s.arbiter.stack.length := by
        rw [stack]
        exact Nat.lt_succ_self _
      exact Nat.add_lt_add_left this _
  · refine ⟨(p.takeQueued (bestEntry_mem best)).frames (setPassWanted_frames true) (setPassWanted_keeps _ _), rfl, fun x mem => ?_, ?_⟩
    · exact bestEntry_priority best x (mem_withoutQueued.mp mem).1
    · exact Nat.add_lt_add_right (length_withoutQueued_lt (bestEntry_mem best)) _

theorem startSlew_arbiter (d : Direction) : (s.startSlew q d).arbiter = { s.arbiter with grant := some q } := by
  rw [State.startSlew, State.setRecordState]
  exact (modifyRecord_fields _ _ _).2.2.2.1

/-- A slew begun for a request that nothing queued is above. -/
theorem Placed.slewed (p : Placed [q] s) (free : s.arbiter.grant = none) (top : ∀ e ∈ s.arbiter.queue, e.request.priority ≤ q.priority) (d : Direction) :
    Beam (s.startSlew q d) where
  placed := p.startSlew free d
  topped := by
    rw [startSlew_arbiter]
    exact ⟨nofun, fun g granted e mem => Option.some.inj granted ▸ top e mem⟩

theorem empty_of_pickWinner (none_ : s.pickWinner = none) : s.arbiter.queue = [] ∧ s.arbiter.stack = [] := by
  unfold State.pickWinner at none_
  split at none_
  · next stack best =>
    have empty := bestEntry_isSome s.arbiter.queue
    rw [best] at empty
    exact ⟨by simpa using empty.symm, stack⟩
  · cases none_
  · cases none_
  · split at none_ <;> cases none_

/-- The loop of selections leaves nothing undone, given fuel for each entry. -/
theorem selectLoop_beam (n : Nat) : ∀ (halt : Bool) (s : State), Placed [] s → s.arbiter.grant = none →
    s.arbiter.queue.length + s.arbiter.stack.length ≤ n → Beam (selectLoop n halt s) := by
  have halted (halt : Bool) (s : State) (p : Placed [] s) (free : s.arbiter.grant = none) (empty : s.arbiter.queue = [] ∧ s.arbiter.stack = []) :
      Beam (if halt = true then s.sendHalt else s) := by
    have here : Beam s := ⟨p, fun _ => empty, fun g granted => by rw [free] at granted; cases granted⟩
    exact .ite (here.frames sendHalt_frames (sendHalt_keeps s)) here
  induction n with
  | zero =>
    intro halt s p free fuel
    exact halted halt s p free ⟨List.length_eq_zero_iff.mp (by omega), List.length_eq_zero_iff.mp (by omega)⟩
  | succ n ih =>
    intro halt s p free fuel
    unfold selectLoop
    split
    · next none_ => exact halted halt s p free (empty_of_pickWinner none_)
    · next q t picked =>
      obtain ⟨placed, grant, top, fewer⟩ := p.picked picked
      split
      · exact placed.slewed (grant.trans free) top _
      · obtain ⟨placed', same⟩ := placed.lostAtGrant (grant.trans free)
        exact ih true _ placed' (by rw [same]; exact grant.trans free) (by rw [same]; omega)

/-- Selection with the beam free leaves nothing undone. -/
theorem Placed.select (p : Placed [] s) (free : s.arbiter.grant = none) (halt : Bool) : Beam (s.select halt) := by
  unfold State.select
  split
  · exact selectLoop_beam _ halt s p free (Nat.le_refl _)
  · next not =>
    refine ⟨p, p.topped_of_parked ?_ free⟩
    cases mode : s.arbiter.runMode with
    | running => exact absurd ⟨by rw [free]; rfl, mode⟩ not
    | parked => rfl

/-- A grant to a loose request that nothing queued is above. -/
theorem Placed.grantTo (p : Placed [q] s) (free : s.arbiter.grant = none) (top : ∀ e ∈ s.arbiter.queue, e.request.priority ≤ q.priority) :
    Beam (s.grantTo q) := by
  unfold State.grantTo
  split
  · exact p.slewed free top _
  · obtain ⟨placed, same⟩ := p.lostAtGrant free
    exact placed.select (by rw [same]; exact free) true

end Sys2Proof.Machine
end


section
/-! Preemption, the ends of a request and RELEASE keep the beam in agreement with nothing left undone (R89 to R93, R97). -/

namespace Sys2Proof.Machine

variable {s t u : State} {h k : Handle} {q x g : Request} {st st' : RecState} {L : List Request} {r : Record} {o : EndOutcome} {e : QueueEntry} {a : Arbiter}

/-! ### What keeps the grant and the queue -/

theorem setRecordNotice_arbiter (j : RecordNotice) : (s.setRecordNotice j h).arbiter = s.arbiter := (setRecordNotice_frames (L := []) j).arbiter

/-- A request on the stack has no revisit OFFERED. -/
theorem Placed.stacked_told (p : Placed L s) (waits : q ∈ s.arbiter.stack) (e : RevisitEntry) (mem : e ∈ s.scheduler.entries)
    (same : e.handle = q.handle) : e.status ≠ .offered := by
  intro is
  obtain ⟨x, handle, -, loose | ⟨st, stood, other⟩⟩ := p.offers e mem is
  · exact p.looseApart x loose q _ (.stacked waits) (congrArg Handle.slot (handle.trans same).symm)
  · exact p.apart stood (.stacked waits) other (congrArg Handle.slot (handle.trans same))

/-- The bottom entry dropped off a full stack. -/
theorem Placed.dropBottom (p : Placed L s) {bottom : Request} (full : s.arbiter.stack[3]? = some bottom) :
    Placed L (((s.setStack (s.arbiter.stack.take 3)).toDormant bottom.handle .dropped).setRecordNotice .drop bottom.handle)
      ∧ (((s.setStack (s.arbiter.stack.take 3)).toDormant bottom.handle .dropped).setRecordNotice .drop bottom.handle).arbiter
        = { s.arbiter with stack := s.arbiter.stack.take 3 } := by
  obtain ⟨long, there⟩ := List.getElem?_eq_some_iff.mp full
  have depth := p.bounds.depth
  have split : s.arbiter.stack = s.arbiter.stack.take 3 ++ [bottom] := by
    conv_lhs => rw [← List.take_append_drop 3 s.arbiter.stack]
    rw [List.drop_eq_getElem_cons long, there, List.drop_eq_nil_of_le (by omega)]
  have perm : s.arbiter.stack.Perm (bottom :: s.arbiter.stack.take 3) := by
    conv_lhs => rw [split]
    exact List.perm_append_singleton bottom _
  have told := p.stacked_told (List.mem_of_getElem? full)
  refine ⟨((p.takeStacked perm).dropped told .dropped).frames (setRecordNotice_frames _) (setRecordNotice_keeps _ _ _), ?_⟩
  rw [setRecordNotice_arbiter, toDormant_arbiter]
  rfl

/-- A loose request that is not a REVISIT one pushed on the stack. -/
theorem Placed.pushStack (p : Placed (q :: L) s) (other : q.origin ≠ .revisit) :
    Placed L (s.pushStack q) ∧ (s.pushStack q).arbiter.grant = s.arbiter.grant ∧ (s.pushStack q).arbiter.queue = s.arbiter.queue := by
  have push (t : State) (p : Placed (q :: L) t) (grant : t.arbiter.grant = s.arbiter.grant) (queue : t.arbiter.queue = s.arbiter.queue)
      (room : t.arbiter.stack.length < 4) :
      Placed L ((t.setStack (q :: t.arbiter.stack)).setRecordState q.handle .suspended)
        ∧ ((t.setStack (q :: t.arbiter.stack)).setRecordState q.handle .suspended).arbiter.grant = s.arbiter.grant
        ∧ ((t.setStack (q :: t.arbiter.stack)).setRecordState q.handle .suspended).arbiter.queue = s.arbiter.queue := by
    have same : ((t.setStack (q :: t.arbiter.stack)).setRecordState q.handle .suspended).arbiter = { t.arbiter with stack := q :: t.arbiter.stack } :=
      (modifyRecord_fields _ _ _).2.2.2.1
    exact ⟨p.pushed other room, by rw [same]; exact grant, by rw [same]; exact queue⟩
  cases full : s.arbiter.stack[3]? with
  | none =>
    rw [pushStack_room full]
    exact push s p rfl rfl (by have := List.getElem?_eq_none_iff.mp full; omega)
  | some bottom =>
    obtain ⟨placed, same⟩ := p.dropBottom full
    have room : (s.arbiter.stack.take 3).length < 4 := Nat.lt_of_le_of_lt (List.length_take_le _ _) (by decide)
    rw [pushStack_full full]
    generalize ((s.setStack (s.arbiter.stack.take 3)).toDormant bottom.handle .dropped).setRecordNotice .drop bottom.handle = t at placed same ⊢
    exact push t placed (by rw [same]) (by rw [same]) (by rw [same]; exact room)

/-! ### The preempted request disposed of -/

/-- What disposing of the request g leaves: it is nowhere loose, the grant is as it was, and each request queued is g or was queued before. -/
structure Disposed (L : List Request) (g : Request) (s t : State) : Prop where
  placed : Placed L t
  grant : t.arbiter.grant = s.arbiter.grant
  queue : ∀ e ∈ t.arbiter.queue, e.request = g ∨ ∃ y ∈ s.arbiter.queue, y.request = e.request

theorem Disposed.told (d : Disposed L g s t) : Disposed L g s (t.setPassWanted true) :=
  ⟨d.placed.frames (setPassWanted_frames true) (setPassWanted_keeps _ _), d.grant, d.queue⟩

theorem Placed.requeued (p : Placed (g :: L) s) (room : s.arbiter.queue.length < 12) : Disposed L g s (s.enqueue g) := by
  obtain ⟨l, n, same, requests⟩ := enqueue_arbiter (q := g) p.bounds room
  refine ⟨p.enqueue room, by rw [same], fun e mem => ?_⟩
  rw [same] at mem
  rcases List.mem_append.mp mem with old | new
  · have there : e.request ∈ s.arbiter.queue.map (·.request) := requests ▸ List.mem_map.mpr ⟨e, old, rfl⟩
    obtain ⟨y, memY, is⟩ := List.mem_map.mp there
    exact .inr ⟨y, memY, is⟩
  · rw [List.mem_singleton.mp new]
    exact .inl rfl

theorem Placed.setAside (p : Placed (g :: L) s) (other : g.origin ≠ .revisit) :
    Disposed L g s (if s.autoResumeOf g.handle = true then (s.pushStack g).setPassWanted true
      else ((s.toDormant g.handle .preempted).setRecordNotice .drop g.handle).setPassWanted true) := by
  split
  · obtain ⟨placed, grant, queue⟩ := p.pushStack other
    exact Disposed.told ⟨placed, grant, fun e mem => .inr ⟨e, queue ▸ mem, rfl⟩⟩
  · have same : ((s.toDormant g.handle .preempted).setRecordNotice .drop g.handle).arbiter = s.arbiter := by
      rw [setRecordNotice_arbiter, toDormant_arbiter]
    have placed := (p.dropped (p.not_offered other) .preempted).frames (setRecordNotice_frames (h := g.handle) .drop) (setRecordNotice_keeps _ _ _)
    exact Disposed.told ⟨placed, by rw [same], fun e mem => .inr ⟨e, same ▸ mem, rfl⟩⟩

theorem Placed.dispose (p : Placed (g :: L) s) (room : s.arbiter.queue.length < 12) : Disposed L g s (s.dispose g) := by
  unfold State.dispose
  split
  · exact p.requeued room
  · exact p.requeued room
  · next origin => exact p.setAside (by rw [origin]; decide)
  · next origin => exact p.setAside (by rw [origin]; decide)

/-! ### The preemption test -/

theorem endPursuit_setGrant_arbiter (b : Bool) : ((s.endPursuit b).setGrant none).arbiter = { s.arbiter with grant := none } := by
  rw [← (endPursuit_fields s b).1]
  rfl

/-- A preemption by the queue's best entry. -/
theorem Placed.preempt (p : Placed [] s) (granted : s.arbiter.grant = some g) (best : bestEntry s.arbiter.queue = some e)
    (above : g.priority < e.request.priority) : Beam (s.preempt g e) := by
  have mem := bestEntry_mem best
  have taken := (p.takeQueued mem).takeGrant (q := g) granted true
  have left := endPursuit_setGrant_arbiter (s := s.setQueue (withoutQueued e.request.handle.slot s.arbiter.queue)) true
  rw [State.preempt]
  generalize ((s.setQueue (withoutQueued e.request.handle.slot s.arbiter.queue)).endPursuit true).setGrant none = t at taken left
  have queue : t.arbiter.queue = withoutQueued e.request.handle.slot s.arbiter.queue := by rw [left]; rfl
  have room : t.arbiter.queue.length < 12 := by
    rw [queue]
    exact Nat.lt_of_lt_of_le (length_withoutQueued_lt mem) p.bounds.room
  obtain ⟨placed, grant, requests⟩ := taken.dispose room
  refine placed.grantTo (by rw [grant, left]) fun y memY => ?_
  rcases requests y memY with is | ⟨z, memZ, is⟩
  · rw [is]
    exact Nat.le_of_lt above
  · rw [← is]
    rw [queue] at memZ
    exact bestEntry_priority best z (mem_withoutQueued.mp memZ).1

/-- The preemption test leaves nothing undone while there is a grant. -/
theorem Placed.preemptionTest (p : Placed [] s) (granted : s.arbiter.grant = some g) : Beam s.preemptionTest := by
  unfold State.preemptionTest
  rw [granted]
  cases best : bestEntry s.arbiter.queue with
  | none =>
    have empty := bestEntry_isSome s.arbiter.queue
    rw [best] at empty
    have nothing : s.arbiter.queue = [] := by simpa using empty.symm
    refine ⟨p, .of_grant granted fun e mem => ?_⟩
    rw [nothing] at mem
    cases mem
  | some e =>
    dsimp only
    split
    · next above => exact p.preempt granted best above
    · next below =>
      exact ⟨p, .of_grant granted fun y mem => (bestEntry_priority best y mem).trans (Nat.le_of_not_lt below)⟩

/-- Arbitration leaves nothing undone. -/
theorem Placed.arbitrate (p : Placed [] s) : Beam s.arbitrate := by
  unfold State.arbitrate
  cases granted : s.arbiter.grant with
  | none => exact p.select granted false
  | some g => exact p.preemptionTest granted

/-! ### Ends that the pursuit unit hands up -/

/-- An end of the pursuit, the beam given on. The request's revisit may stay OFFERED under none of these outcomes. -/
theorem Beam.pursuitEnds (b : Beam s) (o : EndOutcome) (ends : (o = .lost ∨ o = .fault ∨ o = .released ∨ o = .parked)
      ∨ ∀ g, s.arbiter.grant = some g → ∀ e ∈ s.scheduler.entries, e.handle = g.handle → e.status ≠ .offered) : Beam (s.pursuitEnds o) := by
  unfold State.pursuitEnds
  split
  · exact b
  · next g granted =>
    have taken := b.placed.takeGrant granted true
    have left := endPursuit_setGrant_arbiter (s := s) true
    have entries : ((s.endPursuit true).setGrant none).scheduler.entries = s.scheduler.entries :=
      congrArg Scheduler.entries (endPursuit_fields s true).2.1
    have free : ((s.endPursuit true).setGrant none).arbiter.grant = none := by rw [left]
    obtain ⟨placed, same⟩ := taken.closed (o := o) free (ends.imp_right fun told => by rw [entries]; exact told g granted)
    have closed : (s.endPursuit true).closeRequest g o = ((s.endPursuit true).setGrant none).closeRequest g o := rfl
    rw [closed]
    exact placed.select (by rw [same]; exact free) true

theorem Beam.pursuitLost (b : Beam s) : Beam s.pursuitLost := by
  unfold State.pursuitLost
  split
  · exact b
  · exact (b.frames (setRecordNotice_frames _) (setRecordNotice_keeps _ _ _)).pursuitEnds .lost (.inl (.inl rfl))

end Sys2Proof.Machine
end


section
/-! Offers and passes, RELEASE and the requests for the beam keep the beam in agreement with nothing left undone (R84, R87, R93, R109, R110). -/

namespace Sys2Proof.Machine

variable {s t u : State} {h k : Handle} {q x g : Request} {st st' : RecState} {L : List Request} {r : Record} {o : EndOutcome} {e : QueueEntry} {a b : Arbiter}

/-! ### Nothing undone where less waits -/

theorem Topped.subset (t : Topped a) (grant : b.grant = a.grant) (queue : ∀ e ∈ b.queue, e ∈ a.queue) (stack : ∀ q ∈ b.stack, q ∈ a.stack) :
    Topped b where
  used free := by
    obtain ⟨noQueue, noStack⟩ := t.used (grant ▸ free)
    rw [noQueue] at queue
    rw [noStack] at stack
    exact ⟨List.eq_nil_iff_forall_not_mem.mpr fun e mem => List.not_mem_nil (queue e mem),
      List.eq_nil_iff_forall_not_mem.mpr fun q mem => List.not_mem_nil (stack q mem)⟩
  top g granted e mem := t.top g (grant ▸ granted) e (queue e mem)

/-- What waits in the queue waits for a grant. -/
theorem Topped.granted_of_queue (t : Topped a) (mem : e ∈ a.queue) : ∃ g, a.grant = some g := by
  cases granted : a.grant with
  | some g => exact ⟨g, rfl⟩
  | none =>
    rw [(t.used granted).1] at mem
    cases mem

/-! ### Where a record's request stands -/

theorem Placed.queued_of (p : Placed [] s) (live : s.live h = some r) (state : r.state = .queued) :
    ∃ e, s.queuedAt h.slot = some e ∧ e ∈ s.arbiter.queue ∧ e.request.handle = h := by
  have here : s.stateOf h = some .queued := (stateOf_of_live live).trans (congrArg some state)
  rcases p.stands h .queued here nofun with ⟨q, mem, -⟩ | ⟨q, st, stood, rfl⟩
  · cases mem
  · have same := p.states q st stood
    rw [here] at same
    cases stood with
    | stacked => cases same
    | granted => cases same
    | queued waits =>
      obtain ⟨e, mem, rfl⟩ := List.mem_map.mp waits
      cases found : s.queuedAt e.request.handle.slot with
      | none =>
        have := List.find?_eq_none.mp found e mem
        simp at this
      | some y =>
        obtain rfl := p.bounds.queue_unique (List.mem_of_find?_eq_some found) mem (by simpa using List.find?_some found)
        exact ⟨y, rfl, mem, rfl⟩

theorem Placed.stacked_of (p : Placed [] s) (live : s.live h = some r) (state : r.state = .suspended) :
    ∃ q, s.stackedAt h.slot = some q ∧ q ∈ s.arbiter.stack ∧ q.handle = h := by
  have here : s.stateOf h = some .suspended := (stateOf_of_live live).trans (congrArg some state)
  rcases p.stands h .suspended here nofun with ⟨q, mem, -⟩ | ⟨q, st, stood, rfl⟩
  · cases mem
  · have same := p.states q st stood
    rw [here] at same
    cases stood with
    | queued => cases same
    | granted => cases same
    | stacked waits =>
      cases found : s.stackedAt q.handle.slot with
      | none =>
        have := List.find?_eq_none.mp found q waits
        simp at this
      | some y =>
        obtain rfl := List.inj_on_of_nodup_map p.bounds.stackSlots (List.mem_of_find?_eq_some found) waits (by simpa using List.find?_some found)
        exact ⟨y, rfl, waits, rfl⟩

theorem Placed.granted_of (p : Placed [] s) (live : s.live h = some r) {st : Stage} (state : r.state = .active st) :
    ∃ g, s.arbiter.grant = some g ∧ g.handle = h := by
  have here : s.stateOf h = some (.active st) := (stateOf_of_live live).trans (congrArg some state)
  rcases p.stands h _ here nofun with ⟨q, mem, -⟩ | ⟨q, st', stood, rfl⟩
  · cases mem
  · have same := p.states q st' stood
    rw [here] at same
    cases stood with
    | queued => cases same
    | stacked => cases same
    | granted granted => exact ⟨q, granted, rfl⟩

/-! ### RELEASE -/

/-- A RELEASE of a live record takes its request from wherever it stands. -/
theorem Beam.releaseRecord (b : Beam s) (live : s.live h = some r) : Beam (s.releaseRecord h r).1 := by
  obtain ⟨p, topped⟩ := b
  unfold State.releaseRecord
  have told : (EndOutcome.released = .lost ∨ EndOutcome.released = .fault ∨ EndOutcome.released = .released ∨ EndOutcome.released = .parked) :=
    .inr (.inr (.inl rfl))
  cases state : r.state with
  | dormant => exact ⟨p, topped⟩
  | queued =>
    obtain ⟨e, found, mem, rfl⟩ := p.queued_of live state
    simp only [found]
    refine ⟨(p.takeQueued mem).ended (.inl told), ?_⟩
    rw [reportEnd_arbiter, toDormant_arbiter]
    exact topped.subset rfl (fun x left => (mem_withoutQueued.mp left).1) fun _ => id
  | suspended =>
    obtain ⟨q, found, mem, rfl⟩ := p.stacked_of live state
    simp only [found]
    refine ⟨(p.takeStacked (perm_withoutStacked p.bounds.stackSlots mem)).ended (.inl told), ?_⟩
    rw [reportEnd_arbiter, toDormant_arbiter]
    exact topped.subset rfl (fun _ => id) fun x left => (List.mem_filter.mp left).1
  | active st =>
    obtain ⟨g, granted, rfl⟩ := p.granted_of live state
    simp only [granted]
    refine ((p.takeGrant granted false).ended (.inl told)).select ?_ true
    rw [reportEnd_arbiter, toDormant_arbiter]
    rfl

/-! ### Requests for the beam -/

/-- Requests relabelled where they stand, with the same records and origins. -/
theorem Placed.relabel (p : Placed L s) (sub : ∀ x st, Stands t x st → ∃ y, Stands s y st ∧ y.handle = x.handle)
    (back : ∀ y st, Stands s y st → ∃ x, Stands t x st ∧ x.handle = y.handle ∧ x.origin = y.origin) (states : ∀ h, t.stateOf h = s.stateOf h)
    (mode : t.arbiter.runMode = s.arbiter.runMode) (entries : t.scheduler.entries = s.scheduler.entries) (aimed : Aimed t) (bounds : Bounded t.arbiter)
    (list : ListLegal s → ListLegal t) : Placed L t where
  states x st stands := by
    obtain ⟨y, stood, same⟩ := sub x st stands
    rw [states, ← same]
    exact p.states y st stood
  stands h st state awake := by
    refine (p.stands h st ((states h).symm.trans state) awake).imp_right ?_
    rintro ⟨y, st, stood, is⟩
    obtain ⟨x, stands, same, -⟩ := back y st stood
    exact ⟨x, st, stands, same.trans is⟩
  looseLive x mem := by
    rw [states]
    exact p.looseLive x mem
  looseApart x mem y st stands := by
    obtain ⟨z, stood, same⟩ := sub y st stands
    rw [← same]
    exact p.looseApart x mem z st stood
  looseSlots := p.looseSlots
  offers e mem is := by
    obtain ⟨x, handle, origin, loose | ⟨st, stood, other⟩⟩ := p.offers e (entries ▸ mem) is
    · exact ⟨x, handle, origin, .inl loose⟩
    · obtain ⟨z, stands, same, from_⟩ := back x st stood
      exact ⟨z, same.trans handle, from_.trans origin, .inr ⟨st, stands, other⟩⟩
  idle parked := by
    obtain ⟨none_, nothing⟩ := p.idle (mode ▸ parked)
    refine ⟨none_, fun x st stands => ?_⟩
    obtain ⟨y, stood, -⟩ := sub x st stands
    exact nothing y st stood
  aimed := aimed
  bounds := bounds
  list := list p.list

/-- The queue entries relabelled, each with its record, its origin and its arrival number. -/
theorem Placed.relabelQueue (p : Placed L s) (f : QueueEntry → QueueEntry) (handle : ∀ e, (f e).request.handle = e.request.handle)
    (origin : ∀ e, (f e).request.origin = e.request.origin) (arrival : ∀ e, (f e).arrival = e.arrival) :
    Placed L (s.setQueue (s.arbiter.queue.map f)) := by
  refine p.relabel ?_ ?_ (fun _ => rfl) rfl rfl ⟨p.aimed.context, p.aimed.target⟩ ?_ (setQueue_keeps s _).list
  · rintro x st (waits | waits | ⟨granted, pursued⟩)
    · obtain ⟨y, mem, rfl⟩ := List.mem_map.mp waits
      obtain ⟨z, old, rfl⟩ := List.mem_map.mp mem
      exact ⟨z.request, .queued (List.mem_map.mpr ⟨z, old, rfl⟩), (handle z).symm⟩
    · exact ⟨x, .stacked waits, rfl⟩
    · exact ⟨x, .granted granted pursued, rfl⟩
  · rintro y st (waits | waits | ⟨granted, pursued⟩)
    · obtain ⟨z, old, rfl⟩ := List.mem_map.mp waits
      exact ⟨(f z).request, .queued (List.mem_map.mpr ⟨f z, List.mem_map.mpr ⟨z, old, rfl⟩, rfl⟩), handle z, origin z⟩
    · exact ⟨y, .stacked waits, rfl, rfl⟩
    · exact ⟨y, .granted granted pursued, rfl, rfl⟩
  · have slots : (s.arbiter.queue.map f).map (·.request.handle.slot) = s.arbiter.queue.map (·.request.handle.slot) := by
      rw [List.map_map]
      exact List.map_congr_left fun e _ => congrArg Handle.slot (handle e)
    have arrivals : (s.arbiter.queue.map f).map (·.arrival) = s.arbiter.queue.map (·.arrival) := by
      rw [List.map_map]
      exact List.map_congr_left fun e _ => arrival e
    refine ⟨(List.length_map f).trans_le p.bounds.room, p.bounds.depth, slots ▸ p.bounds.queueSlots, p.bounds.stackSlots, arrivals ▸ p.bounds.arrivals,
      fun e mem => ?_, p.bounds.counter⟩
    obtain ⟨z, old, rfl⟩ := List.mem_map.mp mem
    exact (arrival z).symm ▸ p.bounds.below z old

/-- The stack entries relabelled, each with its record and its origin. -/
theorem Placed.relabelStack (p : Placed L s) (f : Request → Request) (handle : ∀ q, (f q).handle = q.handle)
    (origin : ∀ q, (f q).origin = q.origin) : Placed L (s.setStack (s.arbiter.stack.map f)) := by
  refine p.relabel ?_ ?_ (fun _ => rfl) rfl rfl ⟨p.aimed.context, p.aimed.target⟩ ?_ (setStack_keeps s _).list
  · rintro x st (waits | waits | ⟨granted, pursued⟩)
    · exact ⟨x, .queued waits, rfl⟩
    · obtain ⟨y, old, rfl⟩ := List.mem_map.mp waits
      exact ⟨y, .stacked old, (handle y).symm⟩
    · exact ⟨x, .granted granted pursued, rfl⟩
  · rintro y st (waits | waits | ⟨granted, pursued⟩)
    · exact ⟨y, .queued waits, rfl, rfl⟩
    · exact ⟨f y, .stacked (List.mem_map.mpr ⟨y, waits, rfl⟩), handle y, origin y⟩
    · exact ⟨y, .granted granted pursued, rfl, rfl⟩
  · have slots : (s.arbiter.stack.map f).map (·.handle.slot) = s.arbiter.stack.map (·.handle.slot) := by
      rw [List.map_map]
      exact List.map_congr_left fun q _ => congrArg Handle.slot (handle q)
    exact p.bounds.withStack ((List.length_map f).trans_le p.bounds.depth) (slots ▸ p.bounds.stackSlots)

/-- A request for a live record, RUNNING. -/
theorem Beam.pursueRecord (b : Beam s) (live : s.live h = some r) (running : s.arbiter.runMode = .running) (from_ : Origin) (priority : Nat)
    (aim : Option Direction) : Beam (s.pursueRecord h r from_ priority aim).1 := by
  obtain ⟨p, topped⟩ := b
  unfold State.pursueRecord
  cases state : r.state with
  | active st => exact ⟨p, topped⟩
  | dormant =>
    dsimp only
    split
    · exact ⟨p, topped⟩
    · split
      · exact ⟨p, topped⟩
      · next room =>
        have asleep : s.stateOf h = some .dormant := (stateOf_of_live live).trans (congrArg some state)
        have asked := p.ask (q := { handle := h, origin := from_, priority := priority, aim := aim }) asleep running
        exact (asked.enqueue (by simpa [State.queueFull] using room)).arbitrate
  | queued =>
    obtain ⟨e, -, mem, -⟩ := p.queued_of live state
    obtain ⟨g, granted⟩ := topped.granted_of_queue mem
    refine Placed.preemptionTest (g := g) (p.relabelQueue _ ?_ ?_ ?_) granted <;> intro y <;> split <;> rfl
  | suspended =>
    refine ⟨p.relabelStack _ ?_ ?_, fun free => ?_, topped.top⟩
    · intro y; split <;> rfl
    · intro y; split <;> rfl
    · obtain ⟨noQueue, noStack⟩ := topped.used free
      exact ⟨noQueue, by rw [show s.arbiter.stack = [] from noStack]; rfl⟩

/-! ### Offers and passes -/

/-- An offer for a live DORMANT record: its entry OFFERED, its request in the queue. -/
theorem Placed.offered (p : Placed [] s) (live : s.live h = some r) (state : r.state = .dormant) (running : s.arbiter.runMode = .running)
    (room : s.arbiter.queue.length < 12) (priority : Nat) :
    Placed [] ((s.setEntryStatus h.slot .offered).enqueue { handle := h, origin := .revisit, priority := priority, aim := none }) := by
  have asleep : s.stateOf h = some .dormant := (stateOf_of_live live).trans (congrArg some state)
  have asked := p.ask (q := { handle := h, origin := .revisit, priority := priority, aim := none }) asleep running
  refine Placed.enqueue (asked.congr (t := s.setEntryStatus h.slot .offered) rfl rfl (fun _ _ => rfl) (fun _ _ st live => ⟨st, live⟩)
    (fun e mem is => ?_) (setEntryStatus_keeps s _ _).list) room
  obtain ⟨y, old, rfl⟩ := List.mem_map.mp mem
  by_cases here : y.handle.slot = h.slot
  · obtain ⟨ry, liveY, -⟩ := p.list.2.2.1 y old
    have same := handle_unique (stateOf_of_live liveY) asleep here
    rw [if_pos here]
    exact ⟨_, same.symm, rfl, .inl List.mem_cons_self⟩
  · rw [if_neg here] at is ⊢
    exact asked.offers y old is

theorem Beam.takeOffer (b : Beam s) (h : Handle) : Beam (s.takeOffer h).1 := by
  obtain ⟨a, -, refused⟩ | ⟨r, running, live, state, -, room, taken⟩ := takeOffer_cases s h
  · rw [refused]
    exact b
  · rw [taken]
    exact (b.placed.offered live state running room _).arbitrate

theorem offerWalk_beam (l : List (Fin 48)) : ∀ {s : State}, Beam s → Beam (offerWalk l s) := by
  induction l with
  | nil => exact id
  | cons i rest ih =>
    intro s b
    unfold offerWalk
    split
    · exact ih b
    · next h offered =>
      have taken := b.takeOffer h
      split <;> rename_i answer <;> rw [answer] at taken
      case h_1 => exact taken
      case h_2 => exact taken
      case h_3 =>
        obtain ⟨e, r, found, -, -, slot, -, -⟩ := offerable_eq_some _ offered
        obtain rfl := takeOffer_of_ne_ok s answer (by decide)
        exact ih (taken.frames miss_frames (miss_keeps _ h (by simp [slot, found])))
      case h_4 => exact ih taken

theorem passLoop_beam (n : Nat) : ∀ {s : State}, Beam s → Beam (passLoop n s) := by
  have wanted {s : State} (b : Beam s) (v : Bool) : Beam (s.setPassWanted v) := b.frames (setPassWanted_frames v) (setPassWanted_keeps s v)
  induction n with
  | zero => exact fun b => wanted b false
  | succ n ih =>
    intro s b
    unfold passLoop
    split
    · have walked := offerWalk_beam (s.setPassWanted false).dueSlots (wanted b false)
      exact ih (.ite (wanted walked true) walked)
    · exact wanted b false

theorem passLoop_calm (n : Nat) : ∀ s : State, (passLoop n s).scheduler.passWanted = false := by
  induction n with
  | zero => exact fun _ => rfl
  | succ n ih =>
    intro s
    unfold passLoop
    split
    · exact ih _
    · rfl

/-- The end of an event: the beam in agreement, and no trigger of a pass left over. -/
theorem Beam.settle (b : Beam s) (count : Nat) : Beam (s.settle count) ∧ (s.settle count).scheduler.passWanted = false :=
  ⟨passLoop_beam _ (.ite (b.frames (setPassWanted_frames true) (setPassWanted_keeps s true)) b), passLoop_calm _ _⟩

end Sys2Proof.Machine
end


section
/-! RETIRE, the claims of the pendant withdrawn, PARK, UNPARK and the RESET command keep the beam in agreement with nothing left undone (R11, R25, R95, R96,
R98, R99, R100). -/

namespace Sys2Proof.Machine

variable {s t u : State} {h k : Handle} {q x g : Request} {st st' : RecState} {L : List Request} {r : Record} {o : EndOutcome} {e : QueueEntry} {a b : Arbiter}
  {i j : Fin 48}

/-! ### RETIRE -/

theorem stateOf_vacated : (((s.removeEntry i).vacate i).judgeLine).stateOf h = if h.slot = i then none else s.stateOf h := by
  have slot (j : Fin 48) : (((s.removeEntry i).vacate i).judgeLine).slotAt j
      = if i = j then { generation := (s.slotAt i).generation + 1, record := none } else s.slotAt j := slotAt_setSlot (s.removeEntry i) i j _
  rw [State.stateOf, State.stateOf, State.live, State.live, slot]
  by_cases here : h.slot = i
  · rw [if_pos here, if_pos here.symm]
    simp
  · rw [if_neg here, if_neg (Ne.symm here)]

theorem stands_vacated : Stands (((s.removeEntry i).vacate i).judgeLine) x st ↔ Stands s x st :=
  stands_congr (t := ((s.removeEntry i).vacate i).judgeLine) (s := s) rfl rfl

/-- A slot vacated whose record has at most a loose request, which goes with it. -/
theorem Placed.vacated (p : Placed L s) (ne : h.slot ≠ 0) (only : ∀ q ∈ L, q.handle = h) (apart : ∀ x st, Stands s x st → x.handle.slot ≠ h.slot) :
    Placed [] (((s.removeEntry h.slot).vacate h.slot).judgeLine) where
  states x st stands := by
    have stood := stands_vacated.mp stands
    rw [stateOf_vacated, if_neg (apart x st stood)]
    exact p.states x st stood
  stands k st state awake := by
    rw [stateOf_vacated] at state
    split at state
    · cases state
    · next other =>
      rcases p.stands k st state awake with ⟨q, mem, rfl⟩ | ⟨q, st', stood, is⟩
      · exact absurd (congrArg Handle.slot (only q mem)) other
      · exact .inr ⟨q, st', stands_vacated.mpr stood, is⟩
  looseLive _ mem := nomatch mem
  looseApart _ mem := nomatch mem
  looseSlots := List.nodup_nil
  offers e mem is := by
    obtain ⟨old, other⟩ := mem_withoutEntry.mp mem
    obtain ⟨x, handle, origin, loose | ⟨st, stood, apart⟩⟩ := p.offers e old is
    · exact absurd (congrArg Handle.slot (handle.symm.trans (only x loose))) other
    · exact ⟨x, handle, origin, .inr ⟨st, stands_vacated.mpr stood, apart⟩⟩
  idle parked := ⟨rfl, fun x st stands => (p.idle parked).2 x st (stands_vacated.mp stands)⟩
  aimed := p.aimed.of_place rfl rfl
  bounds := p.bounds
  list := (gone_keeps s ne).list p.list

theorem reportRemoval_frames (o : Option Request) : Frames L s (s.reportRemoval o) := by
  unfold State.reportRemoval
  split
  · exact .ite (setPassWanted_frames true) (.refl s)
  · exact .refl s

/-- Nothing of a record stands, and nothing but its own request is loose: what a RETIRE's claim withdrawn from the beam leaves. -/
def Unclaimed (t : State) (h : Handle) : Prop := ∃ L, Placed L t ∧ (∀ q ∈ L, q.handle = h) ∧ ∀ x st, Stands t x st → x.handle.slot ≠ h.slot

theorem Placed.unclaimed (p : Placed [q] t) (is : q.handle = h) (o : Option Request) : Unclaimed (t.reportRemoval o) h := by
  have placed := p.frames (reportRemoval_frames o) (reportRemoval_keeps t o)
  refine ⟨[q], placed, fun x mem => List.mem_singleton.mp mem ▸ is, fun x st stands => ?_⟩
  rw [← is]
  exact placed.looseApart q List.mem_cons_self x st stands

theorem Placed.unclaim (p : Placed [] s) (live : s.live h = some r) : Unclaimed (s.unclaim h r) h := by
  unfold State.unclaim
  cases state : r.state with
  | dormant =>
    refine ⟨[], p, nofun, fun x st stood same => ?_⟩
    have asleep : s.stateOf h = some .dormant := (stateOf_of_live live).trans (congrArg some state)
    have held := p.states x st stood
    rw [handle_unique held asleep same, asleep] at held
    cases stood <;> cases held
  | queued =>
    obtain ⟨e, -, mem, rfl⟩ := p.queued_of live state
    exact (p.takeQueued mem).unclaimed rfl _
  | suspended =>
    obtain ⟨q, -, mem, rfl⟩ := p.stacked_of live state
    exact (p.takeStacked (perm_withoutStacked p.bounds.stackSlots mem)).unclaimed rfl _
  | active st =>
    obtain ⟨g, granted, rfl⟩ := p.granted_of live state
    exact (p.takeGrant granted false).unclaimed rfl _

theorem reportRemoval_arbiter (o : Option Request) : (s.reportRemoval o).arbiter = s.arbiter := (reportRemoval_frames (L := []) o).arbiter

/-- The collections that a claim withdrawn leaves: what was there, and a grant given up only where the record was active. -/
theorem unclaim_arbiter (h : Handle) (r : Record) :
    (∀ e ∈ (s.unclaim h r).arbiter.queue, e ∈ s.arbiter.queue) ∧ (∀ q ∈ (s.unclaim h r).arbiter.stack, q ∈ s.arbiter.stack)
      ∧ (s.unclaim h r).arbiter.grant = if r.isActive = true then none else s.arbiter.grant := by
  unfold State.unclaim Record.isActive
  cases r.state with
  | dormant => exact ⟨fun _ => id, fun _ => id, rfl⟩
  | queued =>
    rw [reportRemoval_arbiter]
    exact ⟨fun e mem => (mem_withoutQueued.mp mem).1, fun _ => id, rfl⟩
  | suspended =>
    rw [reportRemoval_arbiter]
    exact ⟨fun _ => id, fun q mem => (List.mem_filter.mp mem).1, rfl⟩
  | active st =>
    rw [reportRemoval_arbiter, endPursuit_setGrant_arbiter]
    exact ⟨fun _ => id, fun _ => id, rfl⟩

/-- A RETIRE of a live record. -/
theorem Beam.retireRecord (b : Beam s) (live : s.live h = some r) : Beam (s.retireRecord h r).1 := by
  by_cases home : h.slot = 0
  · rw [State.retireRecord, if_pos home]
    exact b
  · obtain ⟨L, placed, only, apart⟩ := b.placed.unclaim live
    have vacated := placed.vacated home only apart
    obtain ⟨queue, stack, grant⟩ := unclaim_arbiter (s := s) h r
    have same : ((((s.unclaim h r).removeEntry h.slot).vacate h.slot).judgeLine).arbiter = (s.unclaim h r).arbiter := rfl
    rw [retireRecord_eq s home]
    split
    · next active => exact vacated.select (by rw [same, grant, if_pos active]) true
    · next idle => exact ⟨vacated, by rw [same]; exact b.topped.subset (by rw [grant, if_neg idle]) queue stack⟩

/-! ### The pendant's claims withdrawn (R96) -/

/-- Queue entries taken out together: their requests are loose. -/
theorem Placed.takeFiltered (p : Placed [] s) (c : QueueEntry → Bool) :
    Placed ((s.arbiter.queue.filter c).map (·.request)) (s.setQueue (s.arbiter.queue.filter fun e => !c e)) := by
  have sub {x : Request} {st : RecState} (stands : Stands (s.setQueue (s.arbiter.queue.filter fun e => !c e)) x st) : Stands s x st := by
    rcases stands with waits | waits | ⟨granted, pursued⟩
    · obtain ⟨y, mem, rfl⟩ := List.mem_map.mp waits
      exact .queued (List.mem_map.mpr ⟨y, (List.mem_filter.mp mem).1, rfl⟩)
    · exact .stacked waits
    · exact .granted granted pursued
  have back {x : Request} {st : RecState} (stood : Stands s x st) :
      Stands (s.setQueue (s.arbiter.queue.filter fun e => !c e)) x st ∨ x ∈ (s.arbiter.queue.filter c).map (·.request) := by
    rcases stood with waits | waits | ⟨granted, pursued⟩
    · obtain ⟨y, mem, rfl⟩ := List.mem_map.mp waits
      by_cases gone : c y = true
      · exact .inr (List.mem_map.mpr ⟨y, List.mem_filter.mpr ⟨mem, gone⟩, rfl⟩)
      · exact .inl (.queued (List.mem_map.mpr ⟨y, List.mem_filter.mpr ⟨mem, by simpa using gone⟩, rfl⟩))
    · exact .inl (.stacked waits)
    · exact .inl (.granted granted pursued)
  have loose {x : Request} (mem : x ∈ (s.arbiter.queue.filter c).map (·.request)) : ∃ y ∈ s.arbiter.queue, c y = true ∧ y.request = x := by
    obtain ⟨y, left, is⟩ := List.mem_map.mp mem
    obtain ⟨old, gone⟩ := List.mem_filter.mp left
    exact ⟨y, old, gone, is⟩
  refine ⟨fun x st stands => p.states x st (sub stands), fun h st state awake => ?_, fun x mem => ?_, fun x mem y st stands => ?_, ?_,
    fun e mem is => ?_, fun parked => ?_, ⟨p.aimed.context, p.aimed.target⟩, p.bounds.withQueue List.filter_sublist, (setQueue_keeps s _).list p.list⟩
  · rcases p.stands h st state awake with ⟨x, none_, -⟩ | ⟨x, st', stood, is⟩
    · cases none_
    · rcases back stood with stands | gone
      · exact .inr ⟨x, st', stands, is⟩
      · exact .inl ⟨x, gone, is⟩
  · obtain ⟨y, old, -, rfl⟩ := loose mem
    exact ⟨.queued, p.states _ _ (.queued (List.mem_map.mpr ⟨y, old, rfl⟩))⟩
  · obtain ⟨z, old, gone, rfl⟩ := loose mem
    have there : Stands s z.request .queued := .queued (List.mem_map.mpr ⟨z, old, rfl⟩)
    rcases stands with waits | waits | ⟨granted, pursued⟩
    · obtain ⟨w, left, rfl⟩ := List.mem_map.mp waits
      obtain ⟨memW, stays⟩ := List.mem_filter.mp left
      intro same
      rw [p.bounds.queue_unique memW old same, gone] at stays
      cases stays
    · exact p.apart (.stacked waits) there nofun
    · exact p.apart (.granted granted pursued) there nofun
  · rw [List.map_map]
    exact p.bounds.queueSlots.sublist (List.filter_sublist.map _)
  · obtain ⟨x, handle, origin, none_ | ⟨st, stood, other⟩⟩ := p.offers e mem is
    · cases none_
    · refine ⟨x, handle, origin, ?_⟩
      rcases back stood with stands | gone
      · exact .inr ⟨st, stands, other⟩
      · exact .inl gone
  · obtain ⟨-, nothing⟩ := p.idle parked
    refine ⟨List.eq_nil_iff_forall_not_mem.mpr fun x mem => ?_, fun x st stands => nothing x st (sub stands)⟩
    obtain ⟨y, old, -, rfl⟩ := loose mem
    exact nothing _ _ (.queued (List.mem_map.mpr ⟨y, old, rfl⟩))

/-- Loose requests without a revisit OFFERED, dropped one after the other. -/
theorem Placed.dropAll (l : List QueueEntry) : ∀ {s : State}, Placed (l.map (·.request)) s → (∀ e ∈ l, e.request.origin ≠ .revisit) →
    Placed [] (l.foldl (fun s e => s.toDormant e.request.handle o) s) ∧ (l.foldl (fun s e => s.toDormant e.request.handle o) s).arbiter = s.arbiter := by
  induction l with
  | nil => exact fun p _ => ⟨p, rfl⟩
  | cons e rest ih =>
    intro s p plain
    have dropped := p.dropped (p.not_offered (plain e List.mem_cons_self)) o
    obtain ⟨placed, same⟩ := ih dropped fun y mem => plain y (List.mem_cons_of_mem _ mem)
    exact ⟨placed, same.trans toDormant_arbiter⟩

theorem Beam.removePendantEntries (b : Beam s) (claimed : Handle → Bool) : Beam (s.removePendantEntries claimed) := by
  obtain ⟨placed, same⟩ := Placed.dropAll (o := .released) _
    (b.placed.takeFiltered fun e => decide (e.request.origin = .pendant) && claimed e.request.handle) fun e mem revisit => by
      have := (List.mem_filter.mp mem).2
      simp [revisit] at this
  refine ⟨placed, ?_⟩
  rw [State.removePendantEntries, same]
  exact b.topped.subset rfl (fun e mem => (List.mem_filter.mp mem).1) fun _ => id

end Sys2Proof.Machine
end


section
/-! PARK, UNPARK and the RESET command, the power-on condition and the rise of RESETN leave the beam in agreement with nothing undone (R24, R25, R98, R99,
R100, R116, R185). -/

namespace Sys2Proof.Machine

variable {s t u : State} {h k : Handle} {q x g : Request} {st st' : RecState} {L : List Request} {r : Record} {o : EndOutcome} {e : QueueEntry} {a b : Arbiter}
  {i j : Fin 48}

/-! ### An empty beam -/

/-- The beam with nothing on it: no request anywhere, every record DORMANT, no revisit OFFERED. -/
structure Empty (s : State) : Prop where
  queue : s.arbiter.queue = []
  stack : s.arbiter.stack = []
  grant : s.arbiter.grant = none
  pursuit : s.pursuit = none
  asleep : ∀ h st, s.stateOf h = some st → st = .dormant
  told : ∀ e ∈ s.scheduler.entries, e.status ≠ .offered

theorem Empty.nothing (empty : Empty s) (q : Request) (st : RecState) : ¬Stands s q st := by
  rintro (waits | waits | ⟨granted, -⟩)
  · rw [empty.queue] at waits
    cases waits
  · rw [empty.stack] at waits
    cases waits
  · rw [empty.grant] at granted
    cases granted

/-- An empty beam is in agreement. -/
theorem Empty.beam (empty : Empty s) (counter : s.arbiter.arrivalCounter ≤ 65535) (list : ListLegal s) : Beam s where
  placed :=
    { states := fun q st stands => absurd stands (empty.nothing q st)
      stands := fun h st state awake => absurd (empty.asleep h st state) awake
      looseLive := nofun
      looseApart := nofun
      looseSlots := List.nodup_nil
      offers := fun e mem is => absurd is (empty.told e mem)
      idle := fun _ => ⟨rfl, empty.nothing⟩
      aimed := ⟨by rw [empty.pursuit, empty.grant]; rfl, fun g c granted => by rw [empty.grant] at granted; cases granted⟩
      bounds := by
        refine ⟨?_, ?_, ?_, ?_, ?_, ?_, counter⟩ <;> simp [empty.queue, empty.stack]
      list := list }
  topped := ⟨fun _ => ⟨empty.queue, empty.stack⟩, fun g granted => by rw [empty.grant] at granted; cases granted⟩

/-- PARKED, the beam is empty. -/
theorem Placed.empty_of_parked (p : Placed L s) (parked : s.arbiter.runMode = .parked) : Empty s := by
  obtain ⟨rfl, nothing⟩ := p.idle parked
  have grant : s.arbiter.grant = none := by
    cases granted : s.arbiter.grant with
    | none => rfl
    | some g =>
      obtain ⟨c, pursued⟩ := Option.isSome_iff_exists.mp (p.aimed.context.trans (congrArg Option.isSome granted))
      exact absurd (.granted granted pursued) (nothing g (.active c.stage))
  refine ⟨?_, ?_, grant, ?_, fun h st state => ?_, fun e mem is => ?_⟩
  · exact List.eq_nil_iff_forall_not_mem.mpr fun e mem => nothing e.request _ (.queued (List.mem_map.mpr ⟨e, mem, rfl⟩))
  · exact List.eq_nil_iff_forall_not_mem.mpr fun q mem => nothing q _ (.stacked mem)
  · exact Option.isSome_eq_false_iff.mp (p.aimed.context.trans (congrArg Option.isSome grant)) |> Option.isNone_iff_eq_none.mp
  · by_contra awake
    rcases p.stands h st state awake with ⟨q, none_, -⟩ | ⟨q, st', stood, -⟩
    · cases none_
    · exact nothing q st' stood
  · obtain ⟨q, -, -, none_ | ⟨st, stood, -⟩⟩ := p.offers e mem is
    · cases none_
    · exact nothing q st stood

/-! ### PARK -/

/-- PARK first ends the pursuit. -/
theorem Placed.parkGrant (p : Placed [] s) : Placed [] s.parkGrant ∧ s.parkGrant.arbiter.grant = none := by
  unfold State.parkGrant
  split
  · next g granted =>
    refine ⟨(p.takeGrant granted true).ended (.inl (.inr (.inr (.inr rfl)))), ?_⟩
    rw [reportEnd_arbiter, toDormant_arbiter]
    rfl
  · next free => exact ⟨p, free⟩

theorem stateOf_of_toDormant (state : (s.toDormant k o).stateOf h = some st) : st = .dormant ∨ s.stateOf h = some st ∧ h ≠ k := by
  obtain ⟨b, dormant⟩ := toDormant_eq (t := s) (h := k) o
  rw [dormant] at state
  have state' : (s.modifyRecord k fun r => { r with state := .dormant, outcome := o }).stateOf h = some st := state
  rw [stateOf_modified] at state'
  split at state'
  · obtain ⟨r, -, is⟩ := Option.map_eq_some_iff.mp state'
    exact .inl is.symm
  · next other => exact .inr ⟨state', other⟩

/-- Records made DORMANT one after the other leave no other state where every other record was DORMANT before. -/
theorem foldl_toDormant_asleep (l : List Request) : ∀ {s : State}, (∀ h st, s.stateOf h = some st → st = .dormant ∨ ∃ q ∈ l, q.handle = h) →
    ∀ h st, (l.foldl (fun s q => s.toDormant q.handle o) s).stateOf h = some st → st = .dormant := by
  induction l with
  | nil => exact fun named h st state => (named h st state).resolve_right nofun
  | cons q rest ih =>
    intro s named
    refine ih (s := s.toDormant q.handle o) fun h st state => ?_
    rcases stateOf_of_toDormant state with asleep | ⟨before, other⟩
    · exact .inl asleep
    · refine (named h st before).imp_right ?_
      rintro ⟨x, mem, is⟩
      rcases List.mem_cons.mp mem with rfl | old
      · exact absurd is.symm other
      · exact ⟨x, old, is⟩

theorem offeredBecomeDue_told (e : RevisitEntry) (mem : e ∈ s.offeredBecomeDue.scheduler.entries) : e.status ≠ .offered := by
  obtain ⟨y, -, rfl⟩ := List.mem_map.mp mem
  split
  · exact nofun
  · assumption

theorem driveHome_frames : Frames L s s.driveHome := by
  unfold State.driveHome
  split
  · exact sendMove_frames _
  · exact sendHalt_frames

/-- PARK leaves the beam empty. -/
theorem Beam.parkFromRunning (b : Beam s) : Beam s.parkFromRunning := by
  obtain ⟨p, free⟩ := b.placed.parkGrant
  have keeps : Keeps s s.parkFromRunning := (((parkGrant_keeps s).trans (parkCollections_keeps _)).trans (driveHome_keeps _)).trans (freeze_keeps _)
  have list := keeps.list b.placed.list
  rw [State.parkFromRunning] at list ⊢
  generalize s.parkGrant = t at p free list
  have asleep : ∀ h st, t.parkCollections.stateOf h = some st → st = .dormant := by
    refine foldl_toDormant_asleep (t.arbiter.queue.map (·.request) ++ t.arbiter.stack) fun h st state => ?_
    by_cases dormant : st = .dormant
    · exact .inl dormant
    · rcases p.stands h st state dormant with ⟨q, none_, -⟩ | ⟨q, st', stood, is⟩
      · cases none_
      · refine .inr ⟨q, ?_, is⟩
        rcases stood with waits | waits | ⟨granted, -⟩
        · exact List.mem_append_left _ waits
        · exact List.mem_append_right _ waits
        · rw [free] at granted
          cases granted
  have pursuit : t.pursuit = none :=
    Option.isNone_iff_eq_none.mp (Option.isSome_eq_false_iff.mp (p.aimed.context.trans (congrArg Option.isSome free)))
  obtain ⟨T, w, collected⟩ := parkCollections_onlyRecords (s := t)
  have left : t.parkCollections.arbiter = { t.arbiter with queue := [], stack := [], arrivalCounter := 0 } := by rw [collected]
  have pursuit' : t.parkCollections.pursuit = none := by
    rw [collected]
    exact pursuit
  have drive : Frames [] t.parkCollections t.parkCollections.driveHome := driveHome_frames
  generalize t.parkCollections = u at asleep left pursuit' drive list
  have driven : u.driveHome.arbiter = { t.arbiter with queue := [], stack := [], arrivalCounter := 0 } := drive.arbiter.trans left
  have still : u.driveHome.pursuit = none := by
    have place := drive.place
    rw [pursuit'] at place
    exact Option.map_eq_none_iff.mp place
  have states := drive.states
  generalize u.driveHome = v at driven still states list
  have frozen : v.freeze.arbiter = { v.arbiter with runMode := .parked } := rfl
  refine Empty.beam ⟨by rw [frozen, driven], by rw [frozen, driven], by rw [frozen, driven]; exact free, still, fun h st state => ?_,
    offeredBecomeDue_told (s := v.setRunMode .parked)⟩ (by rw [frozen, driven]; exact Nat.zero_le _) list
  exact asleep h st ((states h nofun).symm.trans state)

/-! ### UNPARK -/

theorem Beam.plain (b : Beam s) (arbiter : t.arbiter = s.arbiter) (place : t.pursuit.map Context.place = s.pursuit.map Context.place)
    (table : t.table = s.table) (entries : t.scheduler.entries = s.scheduler.entries) : Beam t := by
  have frames : Frames [] s t := .plain arbiter place table entries
  refine ⟨b.placed.congr arbiter place frames.states frames.loose (fun e mem is => b.placed.offers e (entries ▸ mem) is) fun list => ?_,
    arbiter ▸ b.topped⟩
  have slot (i : Fin 48) : t.slotAt i = s.slotAt i := by rw [State.slotAt, State.slotAt, table]
  exact list.of_same (fun i => by rw [State.recordAt, State.recordAt, slot]; exact ⟨rfl, rfl⟩) entries

theorem setRunMode_empty (empty : Empty s) (m : RunMode) : Empty (s.setRunMode m) :=
  ⟨empty.queue, empty.stack, empty.grant, empty.pursuit, empty.asleep, empty.told⟩

/-- UNPARK from PARKED. -/
theorem Beam.unparkFromParked (b : Beam s) (parked : s.arbiter.runMode = .parked) : Beam s.unparkFromParked := by
  have empty := setRunMode_empty (b.placed.empty_of_parked parked) .running
  have up : Beam (s.setRunMode .running) := empty.beam b.placed.bounds.counter ((setRunMode_keeps s _).list b.placed.list)
  have entered : Placed [] (s.setRunMode .running).enterHomeCheck ∧ (s.setRunMode .running).enterHomeCheck.arbiter.grant = none := by
    unfold State.enterHomeCheck
    split
    · next reference =>
      cases held : (s.setRunMode .running).recordAt 0 with
      | none =>
        rw [held] at reference
        cases reference
      | some r =>
        have here : (s.setRunMode .running).stateOf ((s.setRunMode .running).handleOf 0) = some r.state :=
          stateOf_of_live ((live_handleOf _ 0).trans held)
        have asked := up.placed.ask (q := (s.setRunMode .running).homeCheck) (here.trans (congrArg some (empty.asleep _ _ here))) rfl
        have room : (s.setRunMode .running).arbiter.queue.length < 12 := by
          rw [empty.queue]
          decide
        obtain ⟨l, n, same, -⟩ := enqueue_arbiter (q := (s.setRunMode .running).homeCheck) asked.bounds room
        exact ⟨asked.enqueue room, by rw [same]; exact empty.grant⟩
    · exact ⟨up.placed, empty.grant⟩
  obtain ⟨placed, free⟩ := entered
  exact (placed.select free false).plain rfl rfl rfl rfl

/-! ### RESET, power-on and the rise of RESETN -/

theorem cleared_empty (none_ : s.pursuit = none) : Empty s.cleared := by
  obtain ⟨-, arbiter, entries, -⟩ := cleared_fields s
  have pursuit : s.cleared.pursuit = none := by
    rw [State.cleared]
    exact none_
  refine ⟨by rw [arbiter]; rfl, by rw [arbiter]; rfl, by rw [arbiter]; rfl, pursuit, fun h st state => ?_, fun e mem => ?_⟩
  · obtain ⟨r, live, rfl⟩ := stateOf_eq_some.mp state
    obtain ⟨-, r', -, rfl⟩ := recordAt_cleared_some s ((live_eq_some s.cleared).mp live).2
    rfl
  · rw [entries] at mem
    cases mem

theorem cleared_beam (none_ : s.pursuit = none) : Beam s.cleared := by
  refine (cleared_empty none_).beam ?_ (listLegal_cleared s)
  rw [(cleared_fields s).2.1]
  exact Nat.zero_le _

theorem takeReset_beam : Beam s.takeReset := by
  have none_ : ((s.endPursuit true).setContext none).pursuit = none := rfl
  rw [takeReset_eq]
  generalize (s.endPursuit true).setContext none = t at none_
  exact (cleared_beam none_).frames driveHome_frames (driveHome_keeps _)

theorem powerOn_empty (l : List Instr) : Empty { State.powerOn with pending := l } := by
  refine ⟨rfl, rfl, rfl, rfl, fun h st state => ?_, nofun⟩
  obtain ⟨r, live, rfl⟩ := stateOf_eq_some.mp state
  have held : State.powerOn.recordAt h.slot = some r := ((live_eq_some { State.powerOn with pending := l }).mp live).2
  rw [recordAt_powerOn] at held
  split at held
  · cases held
    rfl
  · cases held

theorem powerOn_beam (l : List Instr) : Beam { State.powerOn with pending := l } := (powerOn_empty l).beam (Nat.zero_le _) powerOn_fits.2.1.2.2.2

theorem Beam.rise (b : Beam s) : Beam s.rise := b.plain rfl rfl rfl rfl

end Sys2Proof.Machine
end


section
/-! The pursuit unit keeps the beam in agreement with nothing left undone: its stages, its frames, readings and failures, its arrivals, faults and expiries
(R46 to R73). -/

namespace Sys2Proof.Machine

variable {s t u : State} {h k : Handle} {q x g : Request} {st st' : RecState} {L : List Request} {r : Record} {o : EndOutcome} {e : QueueEntry} {c c' : Context}
  {i j : Fin 48} {f : Frame} {d : Direction}

/-! ### The context and its stage -/

/-- The context rewritten, with what it says of the beam kept. -/
theorem Beam.withContext (b : Beam s) (pursued : s.pursuit = some c) (same : c'.place = c.place) : Beam (s.setContext (some c')) :=
  b.plain rfl (by
    have written : (s.setContext (some c')).pursuit = some c' := rfl
    rw [written, pursued, Option.map_some, Option.map_some, same]) rfl rfl

/-- From s to t the pursuit's stage has changed, in its context and in its record's state. -/
structure Restaged (s t : State) (c c' : Context) : Prop where
  before : s.pursuit = some c
  after : t.pursuit = some c'
  same : c'.target = c.target ∧ c'.origin = c.origin
  arbiter : t.arbiter = s.arbiter
  here : t.stateOf c.target = some (.active c'.stage)
  others : ∀ h, h ≠ c.target → t.stateOf h = s.stateOf h
  offered : ∀ e ∈ t.scheduler.entries, e.status = .offered → ∃ x ∈ s.scheduler.entries, x.handle = e.handle ∧ x.status = .offered
  keeps : Keeps s t

/-- A new stage in the context and in the record's state. -/
theorem Beam.restaged (b : Beam s) (n : Restaged s t c c') : Beam t where
  topped := n.arbiter ▸ b.topped
  placed := by
    have p := b.placed
    obtain ⟨g, granted⟩ := Option.isSome_iff_exists.mp (p.aimed.context.symm.trans (congrArg Option.isSome n.before))
    obtain ⟨target, origin⟩ := p.aimed.target g c granted n.before
    have stood : Stands s g (.active c.stage) := .granted granted n.before
    have sub {x : Request} {st : RecState} (stands : Stands t x st) : Stands s x st ∧ x.handle ≠ c.target ∨ x = g ∧ st = .active c'.stage := by
      rcases stands with waits | waits | ⟨granted', pursued'⟩
      · rw [n.arbiter] at waits
        exact .inl ⟨.queued waits, fun same => p.apart (.queued waits) stood nofun (congrArg Handle.slot (same.trans target))⟩
      · rw [n.arbiter] at waits
        exact .inl ⟨.stacked waits, fun same => p.apart (.stacked waits) stood nofun (congrArg Handle.slot (same.trans target))⟩
      · rw [n.arbiter] at granted'
        rw [n.after] at pursued'
        exact .inr ⟨Option.some.inj (granted'.symm.trans granted), by rw [Option.some.inj pursued']⟩
    have back {x : Request} {st : RecState} (stands : Stands s x st) : ∃ st', Stands t x st' ∧ (st ≠ .suspended → st' ≠ .suspended) := by
      rcases stands with waits | waits | ⟨granted', pursued'⟩
      · exact ⟨.queued, .queued (n.arbiter ▸ waits), id⟩
      · exact ⟨.suspended, .stacked (n.arbiter ▸ waits), id⟩
      · exact ⟨.active c'.stage, .granted (n.arbiter ▸ granted') n.after, fun _ => nofun⟩
    refine ⟨fun x st stands => ?_, fun h st state awake => ?_, nofun, nofun, List.nodup_nil, fun e mem is => ?_, fun parked => ?_, ⟨?_, ?_⟩,
      n.arbiter ▸ p.bounds, n.keeps.list p.list⟩
    · rcases sub stands with ⟨stands, other⟩ | ⟨rfl, rfl⟩
      · exact (n.others _ other).trans (p.states x st stands)
      · exact target ▸ n.here
    · by_cases same : h = c.target
      · obtain ⟨st', stands, -⟩ := back stood
        exact .inr ⟨g, st', stands, target.symm.trans same.symm⟩
      · rcases p.stands h st ((n.others h same).symm.trans state) awake with ⟨q, none_, -⟩ | ⟨q, st, stands, is⟩
        · cases none_
        · obtain ⟨st', stands', -⟩ := back stands
          exact .inr ⟨q, st', stands', is⟩
    · obtain ⟨y, memY, sameY, isY⟩ := n.offered e mem is
      obtain ⟨q, handle, from_, none_ | ⟨st, stands, other⟩⟩ := p.offers y memY isY
      · cases none_
      · obtain ⟨st', stands', still⟩ := back stands
        exact ⟨q, handle.trans sameY, from_, .inr ⟨st', stands', still other⟩⟩
    · exact absurd stood ((p.idle (n.arbiter ▸ parked)).2 g _)
    · rw [n.after, n.arbiter, granted]
      rfl
    · intro g' c'' granted' pursued'
      rw [n.arbiter] at granted'
      rw [n.after] at pursued'
      obtain rfl := Option.some.inj (granted.symm.trans granted')
      obtain rfl := Option.some.inj pursued'
      exact ⟨n.same.1.trans target, n.same.2.trans origin⟩

/-- The pursuit of a beam in agreement has a live record. -/
theorem Beam.pursued_live (b : Beam s) (pursued : s.pursuit = some c) : s.stateOf c.target = some (.active c.stage) := by
  obtain ⟨g, granted⟩ := Option.isSome_iff_exists.mp (b.placed.aimed.context.symm.trans (congrArg Option.isSome pursued))
  rw [(b.placed.aimed.target g c granted pursued).1]
  exact b.placed.states g _ (.granted granted pursued)

/-- A record's state written before the context: the stage delivered to the table first (R53, R57). -/
theorem Beam.deliverStage (b : Beam s) (pursued : s.pursuit = some c) (same : c'.target = c.target ∧ c'.origin = c.origin)
    (frames : Frames [] (s.setRecordState c.target (.active c'.stage)) t) (keeps : Keeps s t) : Beam (t.setContext (some c')) := by
  have live := b.pursued_live pursued
  obtain ⟨-, -, -, arbiter, scheduler, -⟩ := modifyRecord_fields s c.target fun r => { r with state := .active c'.stage }
  refine b.restaged (c := c) (c' := c') ⟨pursued, rfl, same, frames.arbiter.trans arbiter, ?_, fun h other => ?_, fun e mem is => ?_,
    keeps.trans (setContext_keeps t _)⟩
  · exact (frames.states _ nofun).trans (stateOf_setRecordState_self live)
  · exact (frames.states _ nofun).trans (stateOf_setRecordState_other other)
  · obtain ⟨y, memY, sameY, isY⟩ := frames.offered e mem is
    rw [State.setRecordState, scheduler] at memY
    exact ⟨y, memY, sameY, isY⟩

/-- A new stage. -/
theorem Beam.setStage (b : Beam s) (pursued : s.pursuit = some c) {st : Stage} (same : c'.target = c.target ∧ c'.origin = c.origin) :
    Beam (s.setStage c' st) := by
  have live : (s.setContext (some { c' with stage := st })).stateOf c'.target = some (.active c.stage) := same.1.symm ▸ b.pursued_live pursued
  have here := stateOf_setRecordState_self (st := .active st) live
  have others (h : Handle) (other : h ≠ c'.target) :=
    stateOf_setRecordState_other (s := s.setContext (some { c' with stage := st })) (st := .active st) other
  obtain ⟨-, -, pursuit, arbiter, scheduler, -⟩ := modifyRecord_fields (s.setContext (some { c' with stage := st })) c'.target
    fun r => { r with state := .active st }
  refine b.restaged (c := c) (c' := { c' with stage := st }) ⟨pursued, pursuit, same, arbiter, same.1 ▸ here,
    fun h other => others h (same.1.symm ▸ other), fun e mem is => ⟨e, ?_, rfl, is⟩, setStage_keeps s _ _⟩
  rw [State.setStage, State.setRecordState, scheduler] at mem
  exact mem

/-! ### Searches, captures, ranging and breaks -/

theorem Beam.startSearch (b : Beam s) (pursued : s.pursuit = some c) (same : c'.target = c.target ∧ c'.origin = c.origin) (r : Record) (d : Direction) :
    Beam (s.startSearch c' r d) := by
  have withdrawn := b.frames withdrawRange_frames (withdrawRange_keeps s)
  have keeps := startSearch_keeps s c' r d
  unfold State.startSearch
  refine Beam.frames (withdrawn.setStage (c := c) pursued ?_) (.after_modify (sendMove_frames _) fun _ => rfl) ?_
  · exact same
  · refine Keeps.trans ?_ (sendMove_keeps _ _)
    exact (Keeps.refl _).course (fun _ => rfl) (fun _ => rfl) fun _ fits => fits

theorem Beam.capture (b : Beam s) (pursued : s.pursuit = some c) (f : Frame) : Beam (s.capture c f) :=
  have staged := b.setStage (st := .centring) (c' := { c.follow f with centredCount := 0, moveInFlight := false, coastDeadline := none, search := none })
    pursued ⟨rfl, rfl⟩
  staged.frames (t := s.capture c f) (sendFollow_frames _) (sendFollow_keeps _ _)

theorem Beam.sendRangeFor (b : Beam s) (pursued : s.pursuit = some c) (same : c'.place = c.place) : Beam (s.sendRangeFor c') :=
  (b.withContext pursued (c' := { c' with rangeInFlight := true }) same).frames sendRange_frames (sendRange_keeps _)

theorem Beam.enterRanging (b : Beam s) (pursued : s.pursuit = some c) (same : c'.target = c.target ∧ c'.origin = c.origin) : Beam (s.enterRanging c') := by
  have staged := b.deliverStage (c' := { c' with stage := .ranging, readings := 0, heldReading := none, rangeInFlight := true }) pursued same (.refl _)
    (setRecordState_keeps s _ _)
  rw [← same.1] at staged
  exact staged.frames sendRange_frames (sendRange_keeps _)

theorem Beam.breakLock (b : Beam s) (pursued : s.pursuit = some c) (r : Record) : Beam (s.breakLock c r) := by
  have withdrawn := b.frames withdrawRange_frames (withdrawRange_keeps s)
  unfold State.breakLock
  refine Beam.frames (withdrawn.setStage (c := c) pursued ?_) (.after_modify (setRecordNotice_frames _) fun _ => rfl) ?_
  · exact ⟨rfl, rfl⟩
  · refine Keeps.trans ?_ (setRecordNotice_keeps _ _ _)
    exact (Keeps.refl _).course (fun _ => rfl) (fun _ => rfl) fun _ fits => fits

/-! ### Fixes -/

/-- A fix of a record with a revisit leaves it not OFFERED (R112). -/
theorem deliverFix_told (list : ListLegal s) (live : s.live h = some r) (f : Fix) (e : RevisitEntry) (mem : e ∈ (s.deliverFix h f).scheduler.entries)
    (same : e.handle = h) : e.status ≠ .offered := by
  intro is
  rw [State.deliverFix, live] at mem
  dsimp only at mem
  have written : Frames [] s (if r.hold = true ∧ r.fixPending = true then s.modifyRecord h fun r => { r with fixOverrun := true }
      else s.tableWritesFix h r f) := .ite (modifyRecord_frames fun _ => rfl) (tableWritesFix_frames r f)
  generalize (if r.hold = true ∧ r.fixPending = true then s.modifyRecord h fun r => { r with fixOverrun := true }
      else s.tableWritesFix h r f) = w at mem written
  split at mem
  · obtain ⟨y, memY, sameY, isY⟩ := (driftCheck_frames (L := []) f).offered e mem is
    have slot : y.handle.slot = h.slot := congrArg Handle.slot (sameY.trans same)
    obtain ⟨r', live', -⟩ := stateOf_eq_some.mp ((written.states h nofun).trans (stateOf_of_live live))
    unfold State.satisfyRevisit at memY
    rw [live'] at memY
    cases found : w.entryAt h.slot with
    | none =>
      rw [found] at memY
      exact entryAt_eq_none_iff.mp found y memY slot
    | some z =>
      rw [found] at memY
      have placed := placeEntry_only memY slot
      rw [placed] at isY
      cases isY
  · next roving =>
    obtain ⟨y, memY, sameY, -⟩ := written.offered e mem is
    obtain ⟨r', live', fixed, -⟩ := list.2.2.1 y memY
    rw [sameY, same, live] at live'
    obtain rfl := Option.some.inj live'
    exact roving (decide_eq_true fixed)

/-- The context of a reading taken in LOCKED. -/
def Context.readingTaken (c : Context) : Context := { c with rangeInFlight := false, pendingMark := none }

theorem lockedReading_ends (closes : c.origin = .revisit ∨ c.origin = .internal) (r : Record) (n : Nat) : s.lockedReading c r n =
    ((s.setContext (some c.readingTaken)).deliverFix c.target (s.composeFix c r n)).pursuitEnds .done := by
  rcases closes with origin | origin <;> simp only [State.lockedReading, Context.readingTaken, origin]

theorem lockedReading_waits (stays : c.origin = .station ∨ c.origin = .pendant) (r : Record) (n : Nat) : s.lockedReading c r n =
    if r.params.fixInterval = 0
    then ((s.setContext (some c.readingTaken)).deliverFix c.target (s.composeFix c r n)).sendRangeFor c.readingTaken
    else ((s.setContext (some c.readingTaken)).deliverFix c.target (s.composeFix c r n)).setContext
      (some { c.readingTaken with
        fixWait := some (((s.setContext (some c.readingTaken)).deliverFix c.target (s.composeFix c r n)).now + timeOfMs r.params.fixInterval) }) := by
  rcases stays with origin | origin <;> simp only [State.lockedReading, Context.readingTaken, origin]

/-- A reading in LOCKED, begun with its context written. -/
theorem Beam.lockedReading (begun : Beam (s.setContext (some c.readingTaken))) (r : Record) (distance : Nat) : Beam (s.lockedReading c r distance) := by
  have delivered : Frames [] (s.setContext (some c.readingTaken))
      ((s.setContext (some c.readingTaken)).deliverFix c.target (s.composeFix c r distance)) := deliverFix_frames _
  have fixed := begun.frames delivered (deliverFix_keeps _ _ _)
  obtain ⟨r', live, -⟩ := stateOf_eq_some.mp (begun.pursued_live (c := c.readingTaken) rfl)
  have told := deliverFix_told (h := c.target) begun.placed.list live (s.composeFix c r distance)
  have place : _ = some c.readingTaken.place := delivered.place
  have ends := lockedReading_ends (s := s) (c := c) (r := r) (n := distance)
  have waits := lockedReading_waits (s := s) (c := c) (r := r) (n := distance)
  generalize (s.setContext (some c.readingTaken)).deliverFix c.target (s.composeFix c r distance) = t at fixed told place ends waits
  obtain ⟨c', pursued', same⟩ := Option.map_eq_some_iff.mp place
  have done (g : Request) (granted : t.arbiter.grant = some g) (e : RevisitEntry) (mem : e ∈ t.scheduler.entries) (is : e.handle = g.handle) :
      e.status ≠ .offered := by
    refine told e mem (is.trans ?_)
    rw [← (fixed.placed.aimed.target g c' granted pursued').1]
    exact congrArg Prod.fst same
  have closed (closes : c.origin = .revisit ∨ c.origin = .internal) : Beam (s.lockedReading c r distance) := by
    rw [ends closes]
    exact fixed.pursuitEnds .done (.inr done)
  have kept (stays : c.origin = .station ∨ c.origin = .pendant) : Beam (s.lockedReading c r distance) := by
    rw [waits stays]
    exact .ite (fixed.sendRangeFor pursued' same.symm) (fixed.withContext pursued' same.symm)
  cases origin : c.origin with
  | revisit => exact closed (.inl origin)
  | internal => exact closed (.inr origin)
  | station => exact kept (.inl origin)
  | pendant => exact kept (.inr origin)

theorem Beam.enterLocked (b : Beam s) (pursued : s.pursuit = some c) (same : c'.target = c.target ∧ c'.origin = c.origin) (r : Record) (distance : Nat) :
    Beam (s.enterLocked c' r distance) := by
  have locked := b.deliverStage (c' := ({ c' with stage := .locked, nearSlot := none, readings := 0, heldReading := none } : Context).readingTaken) pursued same
    (setRecordNotice_frames (h := c.target) .lock) ((setRecordState_keeps s _ _).trans (setRecordNotice_keeps _ _ _))
  rw [← same.1] at locked
  exact locked.lockedReading (c := { c' with stage := .locked, nearSlot := none, readings := 0, heldReading := none }) r distance

/-! ### Readings and failures -/

theorem Beam.rangingFails (b : Beam s) (pursued : s.pursuit = some c) (same : c'.target = c.target ∧ c'.origin = c.origin) (r : Record) :
    Beam (s.rangingFails c' r) :=
  (b.frames countRangeFailure_frames (countRangeFailure_keeps s)).startSearch (c := c) pursued same r _

theorem Beam.rangingReading (b : Beam s) (pursued : s.pursuit = some c) (r : Record) (distance : Nat) : Beam (s.rangingReading c r distance) :=
  .ite (b.sendRangeFor pursued rfl) (.ite (b.enterLocked pursued ⟨rfl, rfl⟩ r distance) (.ite (b.sendRangeFor pursued rfl)
    (b.rangingFails pursued ⟨rfl, rfl⟩ r)))

theorem Beam.pursuitReading (b : Beam s) (distance : Nat) : Beam (s.pursuitReading distance) := by
  unfold State.pursuitReading
  split
  · exact b
  · next c pursued =>
    split
    · exact b
    · next r _ =>
      split
      · exact b.rangingReading pursued r distance
      · exact (b.withContext (c' := c.readingTaken) pursued rfl).lockedReading r distance
      · exact b

theorem Beam.pursuitFail (b : Beam s) : Beam s.pursuitFail := by
  unfold State.pursuitFail
  split
  · exact b
  · next c pursued =>
    split
    · exact b
    · next r _ =>
      split
      · exact b.rangingFails (c' := { c with rangeInFlight := false }) pursued ⟨rfl, rfl⟩ r
      · exact (b.frames countRangeFailure_frames (countRangeFailure_keeps s)).sendRangeFor (c := c) pursued rfl
      · exact b

/-! ### Frames -/

theorem Beam.centringFrame (b : Beam s) (pursued : s.pursuit = some c) (r : Record) (f : Frame) : Beam (s.centringFrame c r f) := by
  unfold State.centringFrame
  have followed := b.frames (sendFollow_frames (returnDirection f)) (sendFollow_keeps s _)
  split
  · exact b.startSearch pursued ⟨rfl, rfl⟩ r _
  · exact (b.withContext pursued (c' := { c.follow f with centredCount := 0 }) rfl).frames (sendFollow_frames _) (sendFollow_keeps _ _)
  · exact .ite (followed.enterRanging (c := c) pursued ⟨rfl, rfl⟩) (followed.withContext (c := c) pursued rfl)

theorem Beam.huntingFrame (b : Beam s) (pursued : s.pursuit = some c) (r : Record) (inside : Bool) (f : Frame) : Beam (s.huntingFrame c r inside f) := by
  unfold State.huntingFrame
  split
  · exact b.capture pursued f
  · exact b.frames (deliverVerdict_frames _) (deliverVerdict_keeps _ _ _)

theorem Beam.coastingFrame (b : Beam s) (pursued : s.pursuit = some c) (r : Record) (f : Frame) : Beam (s.coastingFrame c r f) := by
  unfold State.coastingFrame
  dsimp only
  split
  · exact b.capture pursued f
  · exact (b.frames (deliverVerdict_frames _) (deliverVerdict_keeps _ _ _)).frames (sendFollow_frames _) (sendFollow_keeps _ _)

theorem Beam.rangingFrame (b : Beam s) (pursued : s.pursuit = some c) (r : Record) (f : Frame) : Beam (s.rangingFrame c r f) :=
  .ite ((b.withContext pursued (c' := c.follow f) rfl).frames (sendFollow_frames _) (sendFollow_keeps _ _)) (b.startSearch pursued ⟨rfl, rfl⟩ r _)

theorem Beam.lockedFrame (b : Beam s) (pursued : s.pursuit = some c) (r : Record) (f : Frame) : Beam (s.lockedFrame c r f) := by
  unfold State.lockedFrame
  refine .ite ?_ (b.breakLock pursued r)
  have noted : Frames [] s (if (s.nearSlotOf c.target.slot (returnDirection f)).isSome = true ∧ s.nearSlotOf c.target.slot (returnDirection f) ≠ c.nearSlot
      then s.setRecordNotice .ambig c.target else s) := .ite (setRecordNotice_frames _) (.refl s)
  have still := b.frames noted (.ite (setRecordNotice_keeps s _ _) (.refl s))
  obtain ⟨c', pursued', same⟩ := Option.map_eq_some_iff.mp (noted.place.trans (congrArg (Option.map Context.place) pursued))
  dsimp only
  generalize (if (s.nearSlotOf c.target.slot (returnDirection f)).isSome = true ∧ s.nearSlotOf c.target.slot (returnDirection f) ≠ c.nearSlot
      then s.setRecordNotice .ambig c.target else s) = t at still pursued' ⊢
  have followed := still.withContext pursued' (c' := { c.follow f with nearSlot := s.nearSlotOf c.target.slot (returnDirection f) }) same.symm
  exact followed.frames (sendFollow_frames _) (sendFollow_keeps _ _)

/-- A frame passed to the pursuit unit. -/
theorem Beam.pursuitFrame (b : Beam s) (f : Frame) : Beam (s.pursuitFrame f) := by
  unfold State.pursuitFrame
  split
  · exact b
  · next c pursued =>
    split
    · exact b
    · next r _ =>
      split
      · exact b.huntingFrame pursued r _ f
      · exact b.huntingFrame pursued r _ f
      · exact b.coastingFrame pursued r f
      · exact b.centringFrame pursued r f
      · exact b.rangingFrame pursued r f
      · exact b.lockedFrame pursued r f

/-! ### Arrivals and expiries -/

theorem Beam.waypointReached (b : Beam s) (pursued : s.pursuit = some c) (search : Search) : Beam (s.waypointReached c search) := by
  unfold State.waypointReached
  split
  · next next _ =>
    exact (b.withContext pursued (c' := { c with moveInFlight := true, search := some next }) rfl).frames (sendMove_frames _) (sendMove_keeps _ _)
  · exact (b.withContext pursued (c' := { c with moveInFlight := false }) rfl).pursuitLost

theorem Beam.pursuitArrived (b : Beam s) : Beam s.pursuitArrived := by
  unfold State.pursuitArrived
  split
  · exact b
  · next c pursued =>
    refine .ite ?_ b
    split
    · exact b.startSearch pursued ⟨rfl, rfl⟩ _ _
    · exact b.waypointReached pursued _
    · exact b

theorem Beam.takeCoastExpiry (b : Beam s) : Beam s.takeCoastExpiry := by
  unfold State.takeCoastExpiry
  split
  · exact b
  · next c pursued =>
    split
    · exact b.startSearch pursued ⟨rfl, rfl⟩ _ _
    · exact b

theorem Beam.takeFixWaitExpiry (b : Beam s) : Beam s.takeFixWaitExpiry := by
  unfold State.takeFixWaitExpiry
  split
  · exact b
  · next c pursued => exact b.sendRangeFor pursued rfl

theorem Beam.takeDueExpiry (b : Beam s) : Beam s.takeDueExpiry := by
  unfold State.takeDueExpiry
  split
  · exact (b.frames (setEntryStatus_frames _ (by decide)) (setEntryStatus_keeps _ _ _)).frames (setPassWanted_frames true) (setPassWanted_keeps _ _)
  · exact b

end Sys2Proof.Machine
end


section
/-! The station's writes to records, tables and notices leave the beam alone, and start no pass (R12 to R27, R83, R105, R106, R141, R152). -/

namespace Sys2Proof.Machine

variable {s t u : State} {h k : Handle} {q x g : Request} {st st' : RecState} {L : List Request} {r : Record} {e : QueueEntry} {i j : Fin 48}
  {f : Record → Record}

/-! ### What leaves the beam alone and starts no pass -/

/-- From s to t the beam is left alone, and no trigger of a pass arises. -/
structure Smooth (s t : State) : Prop where
  frames : Frames [] s t
  passes : t.scheduler.passWanted = s.scheduler.passWanted

theorem Smooth.refl (s : State) : Smooth s s := ⟨.refl s, rfl⟩

theorem Smooth.trans (a : Smooth s t) (b : Smooth t u) : Smooth s u := ⟨a.frames.trans b.frames, b.passes.trans a.passes⟩

theorem Smooth.ite {a b : State} {c : Prop} [Decidable c] (ha : Smooth s a) (hb : Smooth s b) : Smooth s (if c then a else b) := by
  split <;> assumption

/-- An update of what the beam does not touch. -/
theorem Smooth.plain (arbiter : t.arbiter = s.arbiter) (pursuit : t.pursuit = s.pursuit) (table : t.table = s.table) (scheduler : t.scheduler = s.scheduler) :
    Smooth s t := ⟨.plain arbiter (by rw [pursuit]) table (congrArg Scheduler.entries scheduler), congrArg Scheduler.passWanted scheduler⟩

/-- A record's fields rewritten, its state apart. -/
theorem Smooth.modify (same : ∀ r, (f r).state = r.state) : Smooth s (s.modifyRecord h f) :=
  ⟨modifyRecord_frames same, congrArg Scheduler.passWanted (modifyRecord_fields s h f).2.2.2.2.1⟩

theorem setDeviceNotice_smooth (j : DeviceNotice) : Smooth s (s.setDeviceNotice j) := .plain rfl rfl rfl rfl

/-! ### Requests on a record -/

/-- What a request on a record comes to: a refusal, or what it does to a record found. -/
theorem onRecord_cases {found : Except Answer (Handle × Record)} {take : Handle → Record → State × Response} (p : State → Prop) (refused : p s)
    (taken : ∀ h r, found = .ok (h, r) → p (take h r).1) : p (s.onRecord found take).1 := by
  unfold State.onRecord
  split
  · exact refused
  · exact taken _ _ rfl

theorem withSelector_cases {y wanted : Byte} {found : Except Answer (Handle × Record)} {take : Handle → Record → State × Response} (p : State → Prop)
    (refused : p s) (taken : ∀ h r, found = .ok (h, r) → p (take h r).1) : p (withSelector s y wanted found take).1 := by
  unfold withSelector
  split
  · exact onRecord_cases p refused taken
  · exact refused

theorem afterRead_state (r : Record) (g : Group) : (r.afterRead g).state = r.state := by
  unfold Record.afterRead
  split <;> rfl

theorem takeRead_smooth (slot gen group : Byte) : Smooth s (takeRead slot gen group s).1 := by
  unfold takeRead
  split
  · exact .refl s
  · next g _ => exact onRecord_cases (Smooth s) (.refl s) fun h r _ => .modify fun r => afterRead_state r g

theorem setParametersOf_smooth (p : Parameters) : Smooth s (s.setParametersOf h r p).1 := by
  unfold State.setParametersOf
  dsimp only
  split_ifs
  · exact .refl s
  · exact .refl s
  · exact .refl s
  · exact .refl s
  · exact .modify fun _ => rfl

theorem setReferenceOf_smooth (ref : Reference) (a n : Nat) : Smooth s (s.setReferenceOf h r ref a n).1 := by
  unfold State.setReferenceOf
  dsimp only
  split_ifs
  · exact .refl s
  · exact .refl s
  · exact .refl s
  · exact .refl s
  · exact .modify fun _ => rfl

theorem removeReferenceOf_smooth : Smooth s (s.removeReferenceOf h r).1 := by
  unfold State.removeReferenceOf
  dsimp only
  split_ifs
  · exact .refl s
  · exact .refl s
  · exact .refl s
  · exact .modify fun _ => rfl

theorem setHoldOf_smooth (v : Bool) : Smooth s (s.setHoldOf h r v).1 := by
  unfold State.setHoldOf
  split
  · exact .refl s
  · exact .modify fun _ => rfl

theorem takeSetHold_smooth (slot gen y v : Byte) : Smooth s (takeSetHold slot gen y v s).1 :=
  withSelector_cases (Smooth s) (.refl s) fun h r _ => by
    split
    · exact .refl s
    · exact setHoldOf_smooth _

theorem takeSetAutoResume_smooth (slot gen v : Byte) : Smooth s (takeSetAutoResume slot gen v s).1 :=
  onRecord_cases (Smooth s) (.refl s) fun h r _ => by
    split
    · exact .refl s
    · split
      · exact .refl s
      · exact .modify fun _ => rfl

theorem removeEntry_smooth (i : Fin 48) : Smooth s (s.removeEntry i) :=
  ⟨⟨rfl, rfl, fun _ _ => rfl, nofun, fun e mem is => ⟨e, (mem_withoutEntry.mp mem).1, rfl, is⟩⟩, rfl⟩

theorem changedTo_state (r : Record) (k : Kind) : (r.changedTo k).state = r.state := by
  unfold Record.changedTo
  split <;> rfl

theorem changeKindOf_smooth (expected wanted : Kind) : Smooth s (s.changeKindOf h r expected wanted).1 := by
  have written : Smooth s (s.modifyRecord h (·.changedTo wanted)) := .modify fun r => changedTo_state r wanted
  unfold State.changeKindOf
  dsimp only
  split_ifs
  · exact .refl s
  · exact .refl s
  · exact .refl s
  · exact .refl s
  · exact written.trans (removeEntry_smooth _)
  · exact .refl s
  · exact written

theorem takeChangeKind_smooth (slot gen y z : Byte) : Smooth s (takeChangeKind slot gen y z s).1 := by
  unfold takeChangeKind
  split
  · exact onRecord_cases (Smooth s) (.refl s) fun h r _ => changeKindOf_smooth _ _
  · exact .refl s

theorem takeTake_smooth (slot gen : Byte) : Smooth s (takeTake slot gen s).1 :=
  onRecord_cases (Smooth s) (.refl s) fun h r _ => by
    split
    · exact .refl s
    · exact .modify fun _ => rfl

theorem takeGive_smooth (slot gen : Byte) : Smooth s (takeGive slot gen s).1 :=
  onRecord_cases (Smooth s) (.refl s) fun h r _ => by
    split_ifs
    · exact .refl s
    · exact .refl s
    · exact .refl s
    · exact .modify fun _ => rfl

/-! ### Classes, times and notices -/

theorem writeClass_smooth (c : Fin 8) (e : ClassEntry) : Smooth s (s.writeClass c e).1 := by
  unfold State.writeClass
  split_ifs
  · exact .refl s
  · exact .refl s
  · exact .refl s
  · exact .refl s
  · exact .plain rfl rfl rfl rfl

theorem takeClassEntryWrite_smooth (cls : Byte) (a b d e f g : BitVec 16) : Smooth s (takeClassEntryWrite cls a b d e f g s).1 := by
  unfold takeClassEntryWrite
  split
  · exact writeClass_smooth _ _
  · exact .refl s

theorem takeChangeClass_smooth (slot gen cls : Byte) : Smooth s (takeChangeClass slot gen cls s).1 :=
  onRecord_cases (Smooth s) (.refl s) fun h r _ => by
    split
    · exact .refl s
    · split
      · exact .refl s
      · unfold State.changeClassOf
        dsimp only [bare, answered]
        split_ifs
        · exact .refl s
        · exact .refl s
        · exact .modify fun _ => rfl

theorem takeSyncWrite_smooth (v : BitVec 64) : Smooth s (takeSyncWrite v s).1 := by
  unfold takeSyncWrite
  dsimp only
  split_ifs
  · exact .refl s
  · exact .refl s
  · exact .plain rfl rfl rfl rfl

theorem takeNoticeControlWrite_smooth (rm dm m : Byte) : Smooth s (takeNoticeControlWrite rm dm m s).1 := by
  unfold takeNoticeControlWrite
  split
  · exact .refl s
  · split_ifs
    · exact .refl s
    · exact .refl s
    · exact .plain rfl rfl rfl rfl

theorem clearRecordNotices_smooth : Smooth s (s.clearRecordNotices h) :=
  (Smooth.modify (f := fun r => { r with notices := r.notices &&& s.notices.recordMask }) fun _ => rfl).trans (.plain rfl rfl rfl rfl)

theorem takeNextNotice_smooth : Smooth s (takeNextNotice s).1 := by
  unfold takeNextNotice
  split
  · exact .plain rfl rfl rfl rfl
  · split
    · exact clearRecordNotices_smooth
    · exact .refl s

theorem clearCounters_smooth : Smooth s s.clearCounters := .plain rfl rfl rfl rfl

/-! ### The sweep unit -/

theorem setSweep_smooth (w : SweepUnit) : Smooth s (s.setSweep w) := .plain rfl rfl rfl rfl

theorem sweepEnds_smooth (cause : EndCause) (a : SweepAction) (acted skipped : Nat) : Smooth s (s.sweepEnds cause a acted skipped) :=
  (setSweep_smooth _).trans (setDeviceNotice_smooth _)

theorem takeSweep_smooth (start direction count : Byte) (condition : ConditionBytes) (action : Byte) :
    Smooth s (takeSweep start direction count condition action s).1 := by
  unfold takeSweep
  split
  · split_ifs
    · exact .refl s
    · exact .refl s
    · exact .ite (sweepEnds_smooth _ _ _ _) (setSweep_smooth _)
  · exact .refl s

theorem takeSweepStop_smooth : Smooth s (takeSweepStop s).1 := by
  unfold takeSweepStop
  split
  · exact setSweep_smooth _
  · exact .refl s

end Sys2Proof.Machine
end


section
/-! New records, SET-REVISIT, WINDOWS, PRIORITY, sweep steps and the pendant's requests keep the beam in agreement with nothing left undone (R10, R19, R83,
R105, R106, R166, R193 to R201). -/

namespace Sys2Proof.Machine

variable {s t u : State} {h k : Handle} {q x g : Request} {st st' : RecState} {L : List Request} {r : Record} {e : QueueEntry} {i j : Fin 48}
  {f : Record → Record} {w : AllocWindow}

theorem Beam.smooth (b : Beam s) (f : Smooth s t) (keeps : Keeps s t) : Beam t := b.frames f.frames keeps

theorem Beam.framed (b : Beam s) (f : Frames [] s t) (list : ListLegal s → ListLegal t) : Beam t where
  placed := by
    refine b.placed.congr f.arbiter f.place f.states f.loose (fun e mem is => ?_) list
    obtain ⟨y, memY, same, isY⟩ := f.offered e mem is
    obtain ⟨q, handle, rest⟩ := b.placed.offers y memY isY
    exact ⟨q, handle.trans same, rest⟩
  topped := f.arbiter ▸ b.topped

/-! ### New records -/

theorem stateOf_filled (vacant : s.recordAt i = none) {v : Slot} (record : v.record = some r) (generation : v.generation = (s.slotAt i).generation) :
    (s.setSlot i v).stateOf h = if h = s.handleOf i then some r.state else s.stateOf h := by
  rw [State.stateOf, State.stateOf, State.live, State.live]
  by_cases here : h.slot = i
  · subst here
    have empty : (s.slotAt h.slot).record = none := vacant
    rw [slotAt_setSlot_self, generation, record, empty]
    by_cases same : (s.slotAt h.slot).generation = h.generation
    · have whole : h = s.handleOf h.slot := by
        rw [State.handleOf, same]
      rw [if_pos same, if_pos whole]
      rfl
    · have other : h ≠ s.handleOf h.slot := fun whole => same (congrArg Handle.generation whole).symm
      rw [if_neg same, if_neg other, if_neg same]
  · have other : h ≠ s.handleOf i := fun whole => here (congrArg Handle.slot whole)
    rw [slotAt_setSlot_ne _ _ _ _ (Ne.symm here), if_neg other]

/-- A DORMANT record made in a VACANT slot. -/
theorem Beam.filled (b : Beam s) (vacant : s.recordAt i = none) {v : Slot} (record : v.record = some r)
    (generation : v.generation = (s.slotAt i).generation) (asleep : r.state = .dormant) (list : ListLegal (s.setSlot i v)) : Beam (s.setSlot i v) where
  topped := b.topped
  placed := by
    have p := b.placed
    have nobody : s.stateOf (s.handleOf i) = none := by rw [State.stateOf, live_handleOf, vacant, Option.map_none]
    have same {x : Request} {st : RecState} : Stands (s.setSlot i v) x st ↔ Stands s x st := stands_congr (t := s.setSlot i v) (s := s) rfl rfl
    refine ⟨fun x st stands => ?_, fun k st state awake => ?_, nofun, nofun, List.nodup_nil, fun e mem is => ?_,
      fun parked => ⟨rfl, fun x st stands => (p.idle parked).2 x st (same.mp stands)⟩, p.aimed.of_place rfl rfl, p.bounds, list⟩
    · have held := p.states x st (same.mp stands)
      rw [stateOf_filled vacant record generation, if_neg, held]
      intro whole
      rw [whole, nobody] at held
      cases held
    · rw [stateOf_filled vacant record generation] at state
      split at state
      · exact absurd ((Option.some.inj state).symm.trans asleep) awake
      · rcases p.stands k st state awake with ⟨q, none_, -⟩ | ⟨q, st', stood, is⟩
        · cases none_
        · exact .inr ⟨q, st', same.mpr stood, is⟩
    · obtain ⟨q, handle, origin, none_ | ⟨st, stood, other⟩⟩ := p.offers e mem is
      · cases none_
      · exact ⟨q, handle, origin, .inr ⟨st, same.mpr stood, other⟩⟩

theorem Beam.createIn (b : Beam s) {kind : Kind} {cls : Fin 8} {owner : Owner} (made : s.createIn w kind cls owner = some (t, h)) (notHome : kind ≠ .home)
    (inside : owner = .pendant → w = s.table.pendantWindow) : Beam t := by
  have list := (createIn_keeps s made notHome inside).list b.placed.list
  unfold State.createIn at made
  split at made
  · next i found =>
    cases made
    have vacant : w.contains i = true ∧ s.recordAt i = none := by simpa [State.lowestVacant] using List.find?_some found
    exact b.filled (r := Record.created kind cls owner) vacant.2 rfl rfl rfl list
  · cases made

theorem Beam.takeCreate (b : Beam s) (kind cls : Byte) : Beam (takeCreate kind cls s).1 := by
  unfold Machine.takeCreate
  split
  · exact b
  · next notHome _ _ =>
    split
    · next made => exact b.createIn made (fun is => notHome (is ▸ rfl)) nofun
    · exact b
  · exact b

theorem createIn_scheduler {kind : Kind} {cls : Fin 8} {owner : Owner} (made : s.createIn w kind cls owner = some (t, h)) : t.scheduler = s.scheduler := by
  unfold State.createIn at made
  split at made
  · cases made
    rfl
  · cases made

theorem takeCreate_passes (kind cls : Byte) : (takeCreate kind cls s).1.scheduler.passWanted = s.scheduler.passWanted := by
  unfold takeCreate
  split
  · rfl
  · split
    · next made => exact congrArg Scheduler.passWanted (createIn_scheduler made)
    · rfl
  · rfl

/-! ### SET-REVISIT -/

/-- A record with a live handle of its slot is asked for where a queue entry or the grant names the slot. -/
theorem Placed.requested (p : Placed [] s) (live : s.stateOf h = some st) (asked : s.revisitRequested h.slot = true) :
    ∃ q, q.handle = h ∧ q.origin = .revisit ∧ ∃ st, Stands s q st ∧ st ≠ .suspended := by
  rw [State.revisitRequested, Bool.or_eq_true] at asked
  rcases asked with queued | granted
  · cases found : s.queuedAt h.slot with
    | none =>
      rw [found] at queued
      cases queued
    | some e =>
      rw [found] at queued
      have slot : e.request.handle.slot = h.slot := by simpa using List.find?_some found
      have stood : Stands s e.request .queued := .queued (List.mem_map.mpr ⟨e, List.mem_of_find?_eq_some found, rfl⟩)
      exact ⟨e.request, handle_unique (p.states _ _ stood) live slot, of_decide_eq_true queued, _, stood, nofun⟩
  · cases grant : s.arbiter.grant with
    | none =>
      rw [grant] at granted
      cases granted
    | some g =>
      rw [grant] at granted
      obtain ⟨slot, origin⟩ := Bool.and_eq_true_iff.mp granted
      obtain ⟨c, pursued⟩ := Option.isSome_iff_exists.mp (p.aimed.context.trans (congrArg Option.isSome grant))
      have stood : Stands s g (.active c.stage) := .granted grant pursued
      exact ⟨g, handle_unique (p.states _ _ stood) live (of_decide_eq_true slot), of_decide_eq_true origin, _, stood, nofun⟩

/-- The entry of a new period is OFFERED only where the record has a REVISIT request. -/
theorem Placed.offered_atPeriod (p : Placed [] s) (live : s.stateOf h = some st) (is : s.statusAtPeriod h.slot = .offered) :
    ∃ q, q.handle = h ∧ q.origin = .revisit ∧ ∃ st, Stands s q st ∧ st ≠ .suspended := by
  unfold State.statusAtPeriod at is
  cases found : s.entryAt h.slot with
  | none =>
    simp only [found] at is
    split at is
    · next asked => exact p.requested live asked
    · cases is
  | some e =>
    simp only [found] at is
    split at is
    · next offered =>
      obtain ⟨mem, slot⟩ := entryAt_eq_some s found
      obtain ⟨r', live', -⟩ := p.list.2.2.1 e mem
      have same := handle_unique (stateOf_of_live live') live slot
      obtain ⟨q, handle, origin, none_ | stood⟩ := p.offers e mem offered
      · cases none_
      · exact ⟨q, handle.trans same, origin, stood⟩
    · cases is

theorem Beam.setRevisitOf (b : Beam s) (live : s.live h = some r) (n : Nat) : Beam (s.setRevisitOf h r n).1 := by
  have keeps := setRevisitOf_keeps s live n
  unfold State.setRevisitOf at keeps ⊢
  split
  · exact b
  · split
    · exact b
    · split
      · exact b
      · split
        · exact b
        · next kind range full new =>
          rw [if_neg kind, if_neg range, if_neg full, if_neg new] at keeps
          have written : Smooth s (s.modifyRecord h fun r => { r with period := n }) := .modify fun _ => rfl
          have status : (s.modifyRecord h fun r => { r with period := n }).statusAtPeriod h.slot = s.statusAtPeriod h.slot := by
            obtain ⟨-, -, -, arbiter, scheduler, -⟩ := modifyRecord_fields s h fun r => { r with period := n }
            rw [State.statusAtPeriod, State.statusAtPeriod, entryAt_congr (congrArg Scheduler.entries scheduler), State.revisitRequested,
              State.revisitRequested, State.queuedAt, State.queuedAt, arbiter]
          unfold State.reschedule at keeps ⊢
          split
          · next zero =>
            rw [if_pos zero] at keeps
            exact b.frames (written.trans (removeEntry_smooth _)).frames keeps
          · next nonzero =>
            rw [if_neg nonzero] at keeps
            have frames := written.frames
            refine ⟨b.placed.congr frames.arbiter frames.place frames.states frames.loose (fun e mem is => ?_) keeps.list, ?_⟩
            · rcases mem_insertEntry.mp mem with rfl | old
              · obtain ⟨q, handle, origin, stood⟩ := b.placed.offered_atPeriod (stateOf_of_live live) (status.symm.trans is)
                exact ⟨q, handle, origin, .inr stood⟩
              · obtain ⟨y, memY, sameY, isY⟩ := frames.offered e (mem_withoutEntry.mp old).1 is
                obtain ⟨q, handle, rest⟩ := b.placed.offers y memY isY
                exact ⟨q, handle.trans sameY, rest⟩
            · have same : ((s.modifyRecord h fun r => { r with period := n }).placeEntry
                  { handle := h, due := (s.modifyRecord h fun r => { r with period := n }).now + timeOfPeriod n,
                    status := (s.modifyRecord h fun r => { r with period := n }).statusAtPeriod h.slot }).arbiter = s.arbiter := frames.arbiter
              exact same ▸ b.topped

theorem setRevisitOf_passes (n : Nat) : (s.setRevisitOf h r n).1.scheduler.passWanted = s.scheduler.passWanted := by
  have same := congrArg Scheduler.passWanted (modifyRecord_fields s h fun r => { r with period := n }).2.2.2.2.1
  unfold State.setRevisitOf State.reschedule
  split_ifs
  · rfl
  · rfl
  · rfl
  · rfl
  · exact same
  · exact same

/-! ### Windows and priorities -/

theorem transferOutside_frames (w : AllocWindow) : Frames [] s ((s.transferOutside w).setPendantWindow w) := by
  obtain ⟨-, -, pursuit, arbiter, scheduler, -⟩ := transferOutside_fields s w
  obtain ⟨-, -, -, pursuit', arbiter', scheduler', -⟩ := setPendantWindow_fields (s.transferOutside w) w
  refine ⟨arbiter'.trans arbiter, congrArg (Option.map Context.place) (pursuit'.trans pursuit), fun h _ => ?_, nofun, fun e mem is => ⟨e, ?_, rfl, is⟩⟩
  · have record : ((s.transferOutside w).slotAt h.slot).record = (s.slotAt h.slot).record.map fun r =>
        { r with owner := if w.contains h.slot then r.owner else .station } := recordAt_transferOutside s w h.slot
    rw [State.stateOf, State.stateOf, State.live, State.live, slotAt_setPendantWindow, generation_transferOutside, record]
    split
    · rw [Option.map_map]
      rfl
    · rfl
  · rwa [scheduler', scheduler] at mem

theorem Beam.movePendantWindow (b : Beam s) (fits : s.table.pendantWindow.Fits → w.Fits) : Beam (s.movePendantWindow w) := by
  have moved := (b.frames (transferOutside_frames w) (transferOutside_keeps s fits)).removePendantEntries fun h => s.leftOutside w h.slot
  rw [movePendantWindow_eq]
  exact moved.plain rfl rfl rfl rfl

theorem Beam.setWindows (b : Beam s) {st pd : AllocWindow} (fits : s.table.pendantWindow.Fits → pd.Fits) : Beam (s.setWindows st pd) := by
  have written : Beam { s with table := { s.table with stationWindow := st } } :=
    b.framed ⟨rfl, rfl, fun _ _ => rfl, nofun, fun e mem is => ⟨e, mem, rfl, is⟩⟩ id
  exact .ite written (written.movePendantWindow fits)

theorem Beam.takeWindows (b : Beam s) (y sb sl pb pl : Byte) : Beam (takeWindows y sb sl pb pl s).1 := by
  unfold Machine.takeWindows
  split
  · exact b
  · next sel _ =>
    have pendant : ∀ pd, (if selectsPendant sel then windowOf pb pl else s.table.pendantWindow) = pd → (selectsPendant sel = true → pd.inRange = true) →
        s.table.pendantWindow.Fits → pd.Fits := by
      rintro pd rfl inRange fits
      split
      · next selected => simpa [selected, windowInRange_iff] using inRange selected
      · exact fits
    dsimp only
    generalize hpd : (if selectsPendant sel then windowOf pb pl else s.table.pendantWindow) = pd
    generalize (if selectsStation sel then windowOf sb sl else s.table.stationWindow) = st
    split_ifs with range same
    · exact b
    · exact b
    · simp only [not_or, not_and, Bool.not_eq_false] at range
      exact b.setWindows (pendant pd hpd range.2)

theorem Beam.setPriorities (b : Beam s) (p : PriorityTable) : Beam (s.setPriorities p) where
  topped := ⟨b.topped.used, b.topped.top⟩
  placed := by
    have placed := b.placed
    refine placed.relabel (fun x st stands => ⟨x, ?_, rfl⟩) (fun x st stands => ⟨x, ?_, rfl, rfl⟩) (fun _ => rfl) rfl rfl
      ⟨placed.aimed.context, placed.aimed.target⟩ ⟨placed.bounds.room, placed.bounds.depth, placed.bounds.queueSlots, placed.bounds.stackSlots,
        placed.bounds.arrivals, placed.bounds.below, placed.bounds.counter⟩ id
    · rcases stands with waits | waits | ⟨granted, pursued⟩
      · exact .queued waits
      · exact .stacked waits
      · exact .granted granted pursued
    · rcases stands with waits | waits | ⟨granted, pursued⟩
      · exact .queued waits
      · exact .stacked waits
      · exact .granted granted pursued

theorem Beam.takePriorityWrite (b : Beam s) (o v : Byte) : Beam (takePriorityWrite o v s).1 := by
  unfold Machine.takePriorityWrite
  split
  · exact b
  · exact b
  · split_ifs
    · exact b
    · exact b
    · exact b.setPriorities _

theorem takePriorityWrite_passes (o v : Byte) : (takePriorityWrite o v s).1.scheduler.passWanted = s.scheduler.passWanted := by
  unfold takePriorityWrite
  split
  · rfl
  · rfl
  · split_ifs
    · rfl
    · rfl
    · rfl

/-! ### PURSUE, RELEASE, RETIRE, PARK and UNPARK -/

theorem Beam.onRecord (b : Beam s) {found : Except Answer (Handle × Record)} {take : Handle → Record → State × Response}
    (taken : ∀ h r, found = .ok (h, r) → Beam (take h r).1) : Beam (s.onRecord found take).1 := onRecord_cases Beam b taken

theorem running_of_not_parked (up : ¬s.arbiter.runMode = .parked) : s.arbiter.runMode = .running := by
  cases mode : s.arbiter.runMode with
  | running => rfl
  | parked => exact absurd mode up

theorem Beam.takePursue (b : Beam s) (slot gen flags pr : Byte) (az el : BitVec 32) : Beam (takePursue slot gen flags pr az el s).1 :=
  b.onRecord fun h r ok => by
    split_ifs with parked range
    · exact b
    · exact b
    · exact b.pursueRecord (lookup_live s ok) (running_of_not_parked parked) _ _ _

theorem Beam.takeRelease (b : Beam s) (slot gen : Byte) : Beam (takeRelease slot gen s).1 :=
  b.onRecord fun _ _ ok => b.releaseRecord (lookup_live s ok)

theorem Beam.takeRetire (b : Beam s) (slot gen : Byte) : Beam (takeRetire slot gen s).1 :=
  b.onRecord fun _ _ ok => b.retireRecord (lookupOwned_live s ok)

theorem Beam.takePark (b : Beam s) : Beam (takePark s).1 := by
  unfold Machine.takePark
  split
  · exact b
  · exact b.parkFromRunning

theorem Beam.takeUnpark (b : Beam s) : Beam (takeUnpark s).1 := by
  unfold Machine.takeUnpark
  split
  · exact b
  · next stopped =>
    refine b.unparkFromParked ?_
    cases mode : s.arbiter.runMode with
    | running => exact absurd mode stopped
    | parked => rfl

/-! ### Sweep steps -/

theorem Beam.ownedOr (b : Beam s) {p : State × Answer} (acted : Beam p.1) : Beam (ownedOr s r p).1 := by
  unfold Machine.ownedOr
  split
  · exact b
  · exact acted

theorem Beam.setHoldOf (b : Beam s) (v : Bool) : Beam (s.setHoldOf h r v).1 := b.smooth (setHoldOf_smooth v) (setHoldOf_keeps s h r v)

theorem Beam.actOnSlot (b : Beam s) (a : SweepAction) (i : Fin 48) : Beam (s.actOnSlot a i).1 := by
  unfold State.actOnSlot
  split
  · next r held =>
    have live : s.live (s.handleOf i) = some r := (live_handleOf s i).trans held
    cases a with
    | release => exact b.releaseRecord live
    | retire => exact b.ownedOr (b.retireRecord live)
    | revisitOff => exact b.ownedOr (b.setRevisitOf live 0)
    | holdOn => exact b.ownedOr (b.setHoldOf true)
    | holdOff => exact b.ownedOr (b.setHoldOf false)
  · exact b

theorem moveSweepOn_smooth (sw : Sweep) : Smooth s (s.moveSweepOn sw) := by
  unfold State.moveSweepOn
  split
  · exact sweepEnds_smooth _ _ _ _
  · split
    · exact sweepEnds_smooth _ _ _ _
    · exact setSweep_smooth _

theorem Beam.sweepStep (b : Beam s) (sw : Sweep) : Beam (s.sweepStep sw) :=
  .ite ((b.actOnSlot _ _).smooth (moveSweepOn_smooth _) (moveSweepOn_keeps _ _)) (b.smooth (moveSweepOn_smooth sw) (moveSweepOn_keeps _ sw))

/-! ### Instruments and deadlines -/

theorem Beam.takeFrame (b : Beam s) (f : Frame) : Beam (s.takeFrame f) := by
  have counted : Beam (s.countFrame f) := b.plain rfl rfl rfl rfl
  exact .ite (counted.pursuitFrame f) counted

theorem Beam.takeFault (b : Beam s) (tag : Byte) : Beam (s.takeFault tag) := by
  have noted : Beam (s.setDeviceNotice .drive) := b.plain rfl rfl rfl rfl
  exact .ite (.ite (noted.pursuitEnds .fault (.inl (.inr (.inl rfl)))) noted) b

theorem Beam.withdrawn (b : Beam s) : Beam s.withdrawRange := b.plain rfl rfl rfl rfl

theorem Beam.takeRangeTimeout (b : Beam s) : Beam s.takeRangeTimeout := by
  have noted : Beam (s.withdrawRange.setDeviceNotice .range) := b.plain rfl rfl rfl rfl
  exact .ite noted.pursuitFail b

/-! ### The pendant link -/

theorem setPendant_smooth (p : PendantLink) : Smooth s (s.setPendant p) := .plain rfl rfl rfl rfl

theorem countPendantError_smooth : Smooth s s.countPendantError := by
  have noted : Smooth s (if s.notices.pendantErrors = 0 then s.setDeviceNotice .link else s) := .ite (setDeviceNotice_smooth _) (.refl s)
  exact noted.trans (.plain rfl rfl rfl rfl)

theorem takeFrameError_smooth (e : PendantError) : Smooth s (s.takeFrameError e) :=
  .ite ((setPendant_smooth _).trans countPendantError_smooth) (setPendant_smooth _)

theorem goodFrame_smooth : Smooth s s.goodFrame := .ite (setPendant_smooth _) ((setPendant_smooth _).trans (setDeviceNotice_smooth _))

theorem sendStatus_smooth (f : StatusFrame) : Smooth s (s.sendStatus f) := setPendant_smooth _

theorem Beam.takeSilence (b : Beam s) : Beam s.takeSilence := by
  have absent : Beam ((s.setPendant { s.pendant with present := false, silenceDeadline := none }).setDeviceNotice .pendant) := b.plain rfl rfl rfl rfl
  exact absent.removePendantEntries _

theorem pendantLookup_live {offset : Byte} {check : Bool} (ok : s.pendantLookup offset check = .ok (h, r)) : s.live h = some r := by
  unfold State.pendantLookup at ok
  split at ok
  · cases ok
  · next i _ =>
    split at ok
    · cases ok
    · next r' held =>
      split_ifs at ok
      cases ok
      exact (live_handleOf s i).trans held

theorem Beam.onOffset (b : Beam s) {offset : Byte} {check : Bool} {take : Handle → Record → State × Answer}
    (taken : ∀ h r, s.live h = some r → Beam (take h r).1) : Beam (s.onOffset offset check take).after := by
  unfold State.onOffset
  split
  · exact b
  · next h r ok => exact taken h r (pendantLookup_live ok)

theorem Beam.takeClaimNew (b : Beam s) : Beam (takeClaimNew s).after := by
  unfold Machine.takeClaimNew
  split
  · next made => exact b.createIn made nofun fun _ => rfl
  · exact b

theorem Beam.findRecord (b : Beam s) (live : s.live h = some r) : Beam (s.findRecord h r).1 := by
  unfold State.findRecord
  split
  · exact b
  · next up => exact b.pursueRecord live (running_of_not_parked up) _ _ _

theorem Beam.issueMark (b : Beam s) : Beam s.issueMark := by
  refine b.plain rfl ?_ rfl rfl
  have written : s.issueMark.pursuit = s.pursuit.map fun c => { c with pendingMark := some (nextMark s.pendant.markCounter) } := rfl
  rw [written, Option.map_map]
  rfl

theorem Beam.takeMark (b : Beam s) (offset : Byte) : Beam (takeMark offset s).after := by
  unfold Machine.takeMark
  split
  · exact b
  · split
    · exact b.issueMark
    · exact b

end Sys2Proof.Machine
end


section
/-! Every command keeps the beam in agreement with nothing left undone, and leaves no trigger of a pass; the statement on every step is read off this. -/

namespace Sys2Proof.Machine

variable (s : State)

/-! ### How an event comes out -/

/-- An event completes in a next state that keeps the beam in agreement, with no trigger of a pass left over. -/
def Steers (s : State) (o : Result) : Prop := ∃ t, o = .next t ∧ (Beam s → s.scheduler.passWanted = false → Beam t ∧ t.scheduler.passWanted = false)

theorem Beam.quiet {s : State} (b : Beam s) : Beam s.quiet := b.plain rfl rfl rfl rfl

theorem whenUp_beam (n : Nat) {f : State → State}
    (kept : ∀ u : State, Beam u → u.scheduler.passWanted = false → Beam (f u) ∧ (f u).scheduler.passWanted = false) : Steers s (s.whenUp n f) := by
  cases up : s.resetnLow with
  | true => exact ⟨_, whenUp_low s n f up, fun b calm => ⟨b.plain rfl rfl rfl rfl, calm⟩⟩
  | false => exact ⟨_, whenUp_high s n f up, fun b calm => kept s.quiet b.quiet calm⟩

/-- An event whose effect leaves the beam alone. -/
theorem smooth_beam (n : Nat) {f : State → State} (smooth : ∀ u, Smooth u (f u)) (keeps : ∀ u, Keeps u (f u)) : Steers s (s.whenUp n f) :=
  whenUp_beam s n fun u b calm => ⟨b.smooth (smooth u) (keeps u), (smooth u).passes.trans calm⟩

/-- An event of the part: its effect, then the scheduler's passes. -/
theorem ownEvent_beam {f : State → State} (kept : ∀ u, Beam u → Beam (f u)) : Steers s (s.ownEvent f) :=
  whenUp_beam s 0 fun u b _ => (kept u b).settle _

/-- A station command that makes no pass. -/
theorem station_beam (i : Instr) {take : State → State × Response} (kept : ∀ u, Beam u → Beam (take u).1)
    (calm : ∀ u : State, u.scheduler.passWanted = false → (take u).1.scheduler.passWanted = false) : Steers s (s.station i take) := by
  cases up : s.resetnLow with
  | true => exact ⟨_, whenUp_low s _ _ up, fun b calm => ⟨b.plain rfl rfl rfl rfl, calm⟩⟩
  | false =>
    refine ⟨_, station_high s i take up, fun b none_ => ?_⟩
    have taken := kept (s.atRise i) (b.plain rfl rfl rfl rfl)
    have still := calm (s.atRise i) none_
    generalize take (s.atRise i) = p at taken still
    exact ⟨taken.plain rfl rfl rfl rfl, still⟩

theorem station_smooth (i : Instr) {take : State → State × Response} (smooth : ∀ u, Smooth u (take u).1) (keeps : ∀ u, Keeps u (take u).1) :
    Steers s (s.station i take) := station_beam s i (fun u b => b.smooth (smooth u) (keeps u)) fun u calm => (smooth u).passes.trans calm

/-- A station command that only answers. -/
theorem station_still (i : Instr) {take : State → State × Response} (same : ∀ u, (take u).1 = u) : Steers s (s.station i take) :=
  station_beam s i (fun u b => by rw [same]; exact b) fun u calm => by rw [same]; exact calm

/-- A station command followed by the scheduler's passes. -/
theorem settled_beam (i : Instr) {take : State → State × Response} (kept : ∀ u, Beam u → Beam (take u).1) : Steers s (s.station i (settled take)) :=
  station_beam s i (fun u b => ((kept u b).settle _).1) fun _ _ => passLoop_calm _ _

/-- A transaction that is clocked, and may consume a response. -/
theorem clocked_beam (i : Instr) {f : State → State} (judged : ∀ u : State, f u = u ∨ f u = u.dropResponse) :
    Steers s (s.whenUp (clocksOf i) fun u => f (u.transact i)) := by
  refine whenUp_beam s _ fun u b calm => ?_
  have clocked : Beam (u.transact i) := b.plain rfl rfl rfl rfl
  have still : (u.transact i).scheduler.passWanted = false := calm
  generalize u.transact i = t at clocked still
  rcases judged t with same | dropped
  · rw [same]
    exact ⟨clocked, still⟩
  · rw [dropped]
    exact ⟨clocked.plain rfl rfl rfl rfl, still⟩

/-- A request of the pendant. -/
theorem pendantEvent_beam (kind : Byte) (fits : Bool) {take : State → Reply} (kept : ∀ u, Beam u → Beam (take u).after) :
    Steers s (s.pendantEvent kind fits take) := by
  refine whenUp_beam s 0 fun u b calm => ?_
  have good := b.smooth goodFrame_smooth (goodFrame_keeps u)
  have still : u.goodFrame.scheduler.passWanted = false := goodFrame_smooth.passes.trans calm
  generalize u.goodFrame = v at good still
  dsimp only
  split
  · obtain ⟨settled, none_⟩ := (kept v good).settle v.arbiter.queue.length
    exact ⟨settled.smooth (sendStatus_smooth _) (sendStatus_keeps _ _), none_⟩
  · exact ⟨good.smooth (sendStatus_smooth _) (sendStatus_keeps _ _), still⟩

theorem takeReset_passes : s.takeReset.scheduler.passWanted = false := by
  rw [takeReset_eq]
  unfold State.driveHome
  split
  · rfl
  · rfl

/-- A bare answer adds nothing to what a command does. -/
theorem Beam.bare {t : State} (a : Answer) (b : Beam t) : Beam (bare t a).1 := b

theorem bare_passes {t : State} (a : Answer) (calm : t.scheduler.passWanted = false) : (bare t a).1.scheduler.passWanted = false := calm

/-! ### Every command -/

theorem exec_resetnLow_steers : Steers s (exec .resetnLow s) :=
  ⟨_, rfl, fun _ _ => ⟨powerOn_beam s.pending, rfl⟩⟩

theorem exec_resetnRise_steers : Steers s (exec .resetnRise s) := by
  refine ⟨_, rfl, fun b calm => ?_⟩
  split
  · exact ⟨b.rise, calm⟩
  · exact ⟨b, calm⟩

theorem exec_emptyTransaction_steers (clocks : Nat) : Steers s (exec (.emptyTransaction clocks) s) :=
  clocked_beam s (.emptyTransaction clocks) (f := fun u => u) fun _ => .inl rfl

theorem exec_readTransaction_steers (rest : List Byte) : Steers s (exec (.readTransaction rest) s) :=
  clocked_beam s (.readTransaction rest) fun u => endRead_cases u _

theorem exec_badframe_steers (bytes : List Byte) : Steers s (exec (.badframe bytes) s) :=
  station_still s (.badframe bytes) (take := fun u => bare u .badFrame) fun _ => rfl

theorem exec_unknown_steers (code : Byte) (payload : List Byte) : Steers s (exec (.unknown code payload) s) :=
  station_still s (.unknown code payload) (take := fun u => bare u .unknown) fun _ => rfl

theorem exec_create_steers (kind : Byte) (cls : Byte) : Steers s (exec (.create kind cls) s) :=
  station_beam s _ (fun _ b => b.takeCreate _ _) fun _ calm => (takeCreate_passes _ _).trans calm

theorem exec_retire_steers (slot : Byte) (gen : Byte) : Steers s (exec (.retire slot gen) s) :=
  settled_beam s _ fun _ b => b.takeRetire _ _

theorem exec_read_steers (slot : Byte) (gen : Byte) (group : Byte) : Steers s (exec (.read slot gen group) s) :=
  station_smooth s _ (fun _ => takeRead_smooth _ _ _) fun u => takeRead_keeps u _ _ _

theorem exec_setParameters_steers (slot : Byte) (gen : Byte) (x : Byte) (w : BitVec 16) (c : BitVec 16) (f : BitVec 16) (r : Byte) (l : BitVec 16) :
    Steers s (exec (.setParameters slot gen x w c f r l) s) :=
  station_smooth s _ (fun u => withSelector_cases (Smooth u) (.refl u) fun _ _ _ => setParametersOf_smooth _) fun u =>
    withSelector_keeps u fun h r _ => setParametersOf_keeps u h r _

theorem exec_setReference_steers (slot : Byte) (gen : Byte) (x : Byte) (az : BitVec 32) (el : BitVec 32) (rg : BitVec 32) (a : BitVec 16) (t : BitVec 32) :
    Steers s (exec (.setReference slot gen x az el rg a t) s) :=
  station_smooth s _ (fun u => withSelector_cases (Smooth u) (.refl u) fun _ _ _ => setReferenceOf_smooth _ _ _) fun u =>
    withSelector_keeps u fun _ _ ok => setReferenceOf_keeps u (lookupOwned_live u ok) _ _ _

theorem exec_setReferenceRemoval_steers (slot : Byte) (gen : Byte) (x : Byte) : Steers s (exec (.setReferenceRemoval slot gen x) s) :=
  station_smooth s _ (fun u => withSelector_cases (Smooth u) (.refl u) fun _ _ _ => removeReferenceOf_smooth) fun u =>
    withSelector_keeps u fun h r _ => removeReferenceOf_keeps u h r

theorem exec_setHold_steers (slot : Byte) (gen : Byte) (x : Byte) (v : Byte) : Steers s (exec (.setHold slot gen x v) s) :=
  station_smooth s _ (fun _ => takeSetHold_smooth _ _ _ _) fun u => takeSetHold_keeps u _ _ _ _

theorem exec_setAutoResume_steers (slot : Byte) (gen : Byte) (v : Byte) : Steers s (exec (.setAutoResume slot gen v) s) :=
  station_smooth s _ (fun _ => takeSetAutoResume_smooth _ _ _) fun u => takeSetAutoResume_keeps u _ _ _

theorem exec_changeKind_steers (slot : Byte) (gen : Byte) (x : Byte) (y : Byte) : Steers s (exec (.changeKind slot gen x y) s) :=
  station_smooth s _ (fun _ => takeChangeKind_smooth _ _ _ _) fun u => takeChangeKind_keeps u _ _ _ _

theorem exec_take_steers (slot : Byte) (gen : Byte) : Steers s (exec (.take slot gen) s) :=
  station_smooth s _ (fun _ => takeTake_smooth _ _) fun u => takeTake_keeps u _ _

theorem exec_give_steers (slot : Byte) (gen : Byte) : Steers s (exec (.give slot gen) s) :=
  station_smooth s _ (fun _ => takeGive_smooth _ _) fun u => takeGive_keeps u _ _

theorem exec_windows_steers (x : Byte) (sb : Byte) (sl : Byte) (pb : Byte) (pl : Byte) : Steers s (exec (.windows x sb sl pb pl) s) :=
  settled_beam s _ fun _ b => b.takeWindows _ _ _ _ _

theorem exec_classEntryRead_steers (cls : Byte) : Steers s (exec (.classEntryRead cls) s) := by
  refine station_still s _ fun u => ?_
  unfold takeClassEntryRead
  split <;> rfl

theorem exec_classEntryWrite_steers (cls : Byte) (a : BitVec 16) (b : BitVec 16) (d : BitVec 16) (e : BitVec 16) (f : BitVec 16) (g : BitVec 16) :
    Steers s (exec (.classEntryWrite cls a b d e f g) s) :=
  station_smooth s _ (fun _ => takeClassEntryWrite_smooth _ _ _ _ _ _ _) fun u => takeClassEntryWrite_keeps u _ _ _ _ _ _ _

theorem exec_changeClass_steers (slot : Byte) (gen : Byte) (cls : Byte) : Steers s (exec (.changeClass slot gen cls) s) :=
  station_smooth s _ (fun _ => takeChangeClass_smooth _ _ _) fun u => takeChangeClass_keeps u _ _ _

theorem exec_pursue_steers (slot : Byte) (gen : Byte) (flags : Byte) (pr : Byte) (az : BitVec 32) (el : BitVec 32) :
    Steers s (exec (.pursue slot gen flags pr az el) s) :=
  settled_beam s _ fun _ b => b.takePursue _ _ _ _ _ _

theorem exec_release_steers (slot : Byte) (gen : Byte) : Steers s (exec (.release slot gen) s) :=
  settled_beam s _ fun _ b => b.takeRelease _ _

theorem exec_priorityRead_steers (o : Byte) : Steers s (exec (.priorityRead o) s) := by
  refine station_still s _ fun u => ?_
  unfold takePriorityRead
  split <;> rfl

theorem exec_priorityWrite_steers (o : Byte) (v : Byte) : Steers s (exec (.priorityWrite o v) s) :=
  station_beam s _ (fun _ b => b.takePriorityWrite _ _) fun _ calm => (takePriorityWrite_passes _ _).trans calm

theorem exec_park_steers : Steers s (exec .park s) :=
  settled_beam s _ fun _ b => b.takePark

theorem exec_unpark_steers : Steers s (exec .unpark s) :=
  settled_beam s _ fun _ b => b.takeUnpark

theorem exec_beamStatus_steers : Steers s (exec .beamStatus s) :=
  station_still s .beamStatus (take := fun u => answered u .ok u.beamStatusPayload) fun _ => rfl

theorem exec_setRevisit_steers (slot : Byte) (gen : Byte) (p : BitVec 16) : Steers s (exec (.setRevisit slot gen p) s) :=
  station_beam s _ (fun _ b => b.onRecord fun _ _ ok => b.setRevisitOf (lookupOwned_live _ ok) _) fun _ calm =>
    onRecord_cases (fun t => t.scheduler.passWanted = false) calm fun _ _ _ => (setRevisitOf_passes _).trans calm

theorem exec_revisitEntry_steers (p : Byte) : Steers s (exec (.revisitEntry p) s) := by
  refine station_still s _ fun u => ?_
  unfold takeRevisitEntry
  split
  · rfl
  · split <;> rfl

theorem exec_syncRead_steers : Steers s (exec .syncRead s) :=
  station_still s .syncRead (take := fun u => answered u .ok (bytes6 u.reportedNow ++ bytes6 u.time.offset)) fun _ => rfl

theorem exec_syncWrite_steers (v : BitVec 64) : Steers s (exec (.syncWrite v) s) :=
  station_smooth s _ (fun _ => takeSyncWrite_smooth _) fun u => takeSyncWrite_keeps u _

theorem exec_portStatus_steers : Steers s (exec .portStatus s) :=
  station_still s .portStatus (take := fun u => answered u .ok u.portStatusPayload) fun _ => rfl

theorem exec_noticeControlRead_steers : Steers s (exec .noticeControlRead s) :=
  station_still s .noticeControlRead
    (take := fun u => answered u .ok [u.notices.recordMask, u.notices.deviceMask.setWidth 8, flagByte u.notices.master]) fun _ => rfl

theorem exec_noticeControlWrite_steers (rm : Byte) (dm : Byte) (m : Byte) : Steers s (exec (.noticeControlWrite rm dm m) s) :=
  station_smooth s _ (fun _ => takeNoticeControlWrite_smooth _ _ _) fun u => takeNoticeControlWrite_keeps u _ _ _

theorem exec_nextNotice_steers : Steers s (exec .nextNotice s) :=
  station_smooth s _ (fun _ => takeNextNotice_smooth) fun u => takeNextNotice_keeps u

theorem exec_deviceStatus_steers : Steers s (exec .deviceStatus s) :=
  station_smooth s .deviceStatus (take := fun u => answered u.clearCounters .ok u.deviceStatusPayload) (fun _ => clearCounters_smooth) clearCounters_keeps

theorem exec_scan_steers (start : Byte) (direction : Byte) (count : Byte) (condition : ConditionBytes) :
    Steers s (exec (.scan start direction count condition) s) := by
  refine station_still s _ fun u => ?_
  unfold takeScan
  split
  · split <;> rfl
  · rfl

theorem exec_sweep_steers (start : Byte) (direction : Byte) (count : Byte) (condition : ConditionBytes) (action : Byte) :
    Steers s (exec (.sweep start direction count condition action) s) :=
  station_smooth s _ (fun _ => takeSweep_smooth _ _ _ _ _) fun u => takeSweep_keeps u _ _ _ _ _

theorem exec_sweepStatus_steers : Steers s (exec .sweepStatus s) :=
  station_still s .sweepStatus (take := fun u => answered u .ok u.sweep.statusBytes) fun _ => rfl

theorem exec_sweepStop_steers : Steers s (exec .sweepStop s) :=
  station_smooth s _ (fun _ => takeSweepStop_smooth) fun u => takeSweepStop_keeps u

theorem exec_reset_steers : Steers s (exec .reset s) :=
  station_beam s .reset (take := fun u => bare u.takeReset .ok) (fun _ _ => Beam.bare .ok takeReset_beam) fun u _ =>
    bare_passes .ok (takeReset_passes u)

theorem exec_sweepStep_steers : Steers s (exec .sweepStep s) := by
  refine ownEvent_beam s (f := fun u => match u.sweep.inFlight with | some sw => u.sweepStep sw | none => u) fun u b => ?_
  split
  · exact b.sweepStep _
  · exact b

theorem exec_detectorFrame_steers (f : Frame) : Steers s (exec (.detectorFrame f) s) :=
  ownEvent_beam s (f := fun u => u.takeFrame f) fun _ b => b.takeFrame f

theorem exec_arrived_steers (tag : Byte) : Steers s (exec (.arrived tag) s) :=
  ownEvent_beam s (f := fun u => u.takeArrived tag) fun _ b => .ite b.pursuitArrived b

theorem exec_driveFault_steers (tag : Byte) (why : DriveFaultReason) : Steers s (exec (.driveFault tag why) s) :=
  ownEvent_beam s (f := fun u => u.takeFault tag) fun _ b => b.takeFault tag

theorem exec_reading_steers (tag : Byte) (distance : Nat) : Steers s (exec (.reading tag distance) s) :=
  ownEvent_beam s (f := fun u => u.takeReading tag distance) fun _ b => .ite (b.withdrawn.pursuitReading distance) b

theorem exec_fail_steers (tag : Byte) (why : RangeFailReason) : Steers s (exec (.fail tag why) s) :=
  ownEvent_beam s (f := fun u => u.takeFail tag) fun _ b => .ite b.withdrawn.pursuitFail b

theorem exec_rangeTimeout_steers : Steers s (exec .rangeTimeout s) :=
  ownEvent_beam s (f := State.takeRangeTimeout) fun _ b => b.takeRangeTimeout

theorem exec_coastDeadlineExpiry_steers : Steers s (exec .coastDeadlineExpiry s) :=
  ownEvent_beam s (f := fun u => if u.coastExpired then u.takeCoastExpiry else u) fun _ b => .ite b.takeCoastExpiry b

theorem exec_searchDeadlineExpiry_steers : Steers s (exec .searchDeadlineExpiry s) :=
  ownEvent_beam s (f := fun u => if u.searchExpired then u.pursuitLost else u) fun _ b => .ite b.pursuitLost b

theorem exec_fixWaitExpiry_steers : Steers s (exec .fixWaitExpiry s) :=
  ownEvent_beam s (f := fun u => if u.fixWaitExpired then u.takeFixWaitExpiry else u) fun _ b => .ite b.takeFixWaitExpiry b

theorem exec_dueTimeExpiry_steers : Steers s (exec .dueTimeExpiry s) :=
  ownEvent_beam s (f := State.takeDueExpiry) fun _ b => b.takeDueExpiry

theorem exec_pendantFrameError_steers (e : PendantError) : Steers s (exec (.pendantFrameError e) s) :=
  smooth_beam s 0 (f := fun u => u.takeFrameError e) (fun _ => takeFrameError_smooth e) fun u => takeFrameError_keeps u e

theorem exec_poll_steers (p : List Byte) : Steers s (exec (.poll p) s) :=
  pendantEvent_beam s _ _ (take := fun u => u.onOffset (offsetOf p) false fun _ _ => (u, .ok)) fun _ b => b.onOffset fun _ _ _ => b

theorem exec_claimNew_steers (p : List Byte) : Steers s (exec (.claimNew p) s) :=
  pendantEvent_beam s _ _ (take := takeClaimNew) fun _ b => b.takeClaimNew

theorem exec_find_steers (p : List Byte) : Steers s (exec (.find p) s) :=
  pendantEvent_beam s _ _ (take := fun u => u.onOffset (offsetOf p) true u.findRecord) fun _ b => b.onOffset fun _ _ live => b.findRecord live

theorem exec_letGo_steers (p : List Byte) : Steers s (exec (.letGo p) s) :=
  pendantEvent_beam s _ _ (take := fun u => u.onOffset (offsetOf p) true u.releaseRecord) fun _ b => b.onOffset fun _ _ live => b.releaseRecord live

theorem exec_holdOn_steers (p : List Byte) : Steers s (exec (.holdOn p) s) :=
  pendantEvent_beam s _ _ (take := fun u => u.onOffset (offsetOf p) true (fun h r => u.setHoldOf h r true)) fun _ b => b.onOffset fun _ _ _ => b.setHoldOf true

theorem exec_holdOff_steers (p : List Byte) : Steers s (exec (.holdOff p) s) :=
  pendantEvent_beam s _ _ (take := fun u => u.onOffset (offsetOf p) true (fun h r => u.setHoldOf h r false)) fun _ b =>
    b.onOffset fun _ _ _ => b.setHoldOf false

theorem exec_mark_steers (p : List Byte) : Steers s (exec (.mark p) s) :=
  pendantEvent_beam s _ _ (take := takeMark (offsetOf p)) fun _ b => b.takeMark _

theorem exec_drop_steers (p : List Byte) : Steers s (exec (.drop p) s) :=
  pendantEvent_beam s _ _ (take := fun u => u.onOffset (offsetOf p) true u.retireRecord) fun _ b => b.onOffset fun _ _ live => b.retireRecord live

theorem exec_pendantSilenceExpiry_steers : Steers s (exec .pendantSilenceExpiry s) :=
  ownEvent_beam s (f := fun u => if u.silenceExpired then u.takeSilence else u) fun _ b => .ite b.takeSilence b

theorem exec_statusFrameSent_steers : Steers s (exec .statusFrameSent s) :=
  smooth_beam s 0 (f := fun u => u.setPendant u.pendant.sent) (fun _ => setPendant_smooth _) fun u => setPendant_keeps u (length_sent_waiting u.pendant)

theorem exec_lineReturnToIdle_steers : Steers s (exec .lineReturnToIdle s) :=
  smooth_beam s 0 (f := fun u => u.setPendant { u.pendant with inBreak := false }) (fun _ => setPendant_smooth _) fun u => setPendant_keeps u id

/-- Every command keeps the beam in agreement with nothing left undone, and leaves no trigger of a pass. -/
theorem exec_steers (c : Instr) : Steers s (exec c s) := by
  cases c with
  | resetnLow => exact exec_resetnLow_steers s
  | resetnRise => exact exec_resetnRise_steers s
  | emptyTransaction => exact exec_emptyTransaction_steers s _
  | readTransaction => exact exec_readTransaction_steers s _
  | badframe => exact exec_badframe_steers s _
  | unknown => exact exec_unknown_steers s _ _
  | create => exact exec_create_steers s _ _
  | retire => exact exec_retire_steers s _ _
  | read => exact exec_read_steers s _ _ _
  | setParameters => exact exec_setParameters_steers s _ _ _ _ _ _ _ _
  | setReference => exact exec_setReference_steers s _ _ _ _ _ _ _ _
  | setReferenceRemoval => exact exec_setReferenceRemoval_steers s _ _ _
  | setHold => exact exec_setHold_steers s _ _ _ _
  | setAutoResume => exact exec_setAutoResume_steers s _ _ _
  | changeKind => exact exec_changeKind_steers s _ _ _ _
  | take => exact exec_take_steers s _ _
  | give => exact exec_give_steers s _ _
  | windows => exact exec_windows_steers s _ _ _ _ _
  | classEntryRead => exact exec_classEntryRead_steers s _
  | classEntryWrite => exact exec_classEntryWrite_steers s _ _ _ _ _ _ _
  | changeClass => exact exec_changeClass_steers s _ _ _
  | pursue => exact exec_pursue_steers s _ _ _ _ _ _
  | release => exact exec_release_steers s _ _
  | priorityRead => exact exec_priorityRead_steers s _
  | priorityWrite => exact exec_priorityWrite_steers s _ _
  | park => exact exec_park_steers s
  | unpark => exact exec_unpark_steers s
  | beamStatus => exact exec_beamStatus_steers s
  | setRevisit => exact exec_setRevisit_steers s _ _ _
  | revisitEntry => exact exec_revisitEntry_steers s _
  | syncRead => exact exec_syncRead_steers s
  | syncWrite => exact exec_syncWrite_steers s _
  | portStatus => exact exec_portStatus_steers s
  | noticeControlRead => exact exec_noticeControlRead_steers s
  | noticeControlWrite => exact exec_noticeControlWrite_steers s _ _ _
  | nextNotice => exact exec_nextNotice_steers s
  | deviceStatus => exact exec_deviceStatus_steers s
  | scan => exact exec_scan_steers s _ _ _ _
  | sweep => exact exec_sweep_steers s _ _ _ _ _
  | sweepStatus => exact exec_sweepStatus_steers s
  | sweepStop => exact exec_sweepStop_steers s
  | reset => exact exec_reset_steers s
  | sweepStep => exact exec_sweepStep_steers s
  | detectorFrame => exact exec_detectorFrame_steers s _
  | arrived => exact exec_arrived_steers s _
  | driveFault => exact exec_driveFault_steers s _ _
  | reading => exact exec_reading_steers s _ _
  | fail => exact exec_fail_steers s _ _
  | rangeTimeout => exact exec_rangeTimeout_steers s
  | coastDeadlineExpiry => exact exec_coastDeadlineExpiry_steers s
  | searchDeadlineExpiry => exact exec_searchDeadlineExpiry_steers s
  | fixWaitExpiry => exact exec_fixWaitExpiry_steers s
  | dueTimeExpiry => exact exec_dueTimeExpiry_steers s
  | pendantFrameError => exact exec_pendantFrameError_steers s _
  | poll => exact exec_poll_steers s _
  | claimNew => exact exec_claimNew_steers s _
  | find => exact exec_find_steers s _
  | letGo => exact exec_letGo_steers s _
  | holdOn => exact exec_holdOn_steers s _
  | holdOff => exact exec_holdOff_steers s _
  | mark => exact exec_mark_steers s _
  | drop => exact exec_drop_steers s _
  | pendantSilenceExpiry => exact exec_pendantSilenceExpiry_steers s
  | statusFrameSent => exact exec_statusFrameSent_steers s
  | lineReturnToIdle => exact exec_lineReturnToIdle_steers s

/-- Every step keeps the beam in agreement with nothing left undone, and leaves no trigger of a pass. -/
theorem step_steers {s' : State} (stepped : step s = .next s') (b : Beam s) (calm : s.scheduler.passWanted = false) :
    Beam s' ∧ s'.scheduler.passWanted = false := by
  have ran (c : Instr) (u : State) (b : Beam u) (calm : u.scheduler.passWanted = false) (same : exec c u = .next s') :
      Beam s' ∧ s'.scheduler.passWanted = false := by
    obtain ⟨t, next, kept⟩ := exec_steers u c
    obtain rfl : t = s' := (Host.Outcome.next.inj (same.symm.trans next)).symm
    exact kept b calm
  unfold step at stepped
  split at stepped
  · next i rest _ => exact ran i (s.setPending rest) (b.plain rfl rfl rfl rfl) calm stepped
  · unfold State.idle at stepped
    split at stepped
    · cases stepped
      exact ⟨b, calm⟩
    · split at stepped
      · exact ran _ s b calm stepped
      · cases stepped
        exact ⟨b.plain rfl rfl rfl rfl, calm⟩

end Sys2Proof.Machine
end


section
/-! The beam in agreement, as the statement on every step says it. -/

namespace Sys2Proof.Machine

variable {s t : State} {h : Handle} {q g : Request} {st : RecState} {r : Record} {c : Context} {i : Fin 48}

theorem handleOf_of_live (live : s.live h = some r) : s.recordAt h.slot = some r ∧ s.handleOf h.slot = h := by
  obtain ⟨generation, held⟩ := (live_eq_some s).mp live
  refine ⟨held, ?_⟩
  rw [State.handleOf, generation]

theorem stateOf_handleOf (held : s.recordAt i = some r) : s.stateOf (s.handleOf i) = some r.state :=
  stateOf_of_live ((live_handleOf s i).trans held)

/-- The properties of the statement put the beam in agreement with nothing left undone. -/
theorem Beam.of_legal (list : ListLegal s) (legal : BeamLegal s) (agree : StatesAgree s) (offers : OffersStand s) (done : SelectionDone s) : Beam s := by
  obtain ⟨parked, context, room, depth, -⟩ := legal
  obtain ⟨queued, stacked, active, target, inQueue, onStack, granted, queueSlots, stackSlots⟩ := agree
  obtain ⟨used, top, arrivals, below, counter⟩ := done
  have pursued_of (g : Request) (grant : s.arbiter.grant = some g) : ∃ c, s.pursuit = some c :=
    Option.isSome_iff_exists.mp (context.trans (congrArg Option.isSome grant))
  refine ⟨⟨fun q st stands => ?_, fun h st state awake => ?_, nofun, nofun, List.nodup_nil, fun e mem is => ?_,
    fun mode => ⟨rfl, fun q st stands => ?_⟩, ⟨context, target⟩, ⟨room, depth, queueSlots, stackSlots, arrivals, below, counter⟩, list⟩, ⟨used, top⟩⟩
  · rcases stands with waits | waits | ⟨grant, pursued⟩
    · obtain ⟨e, mem, rfl⟩ := List.mem_map.mp waits
      exact stateOf_eq_some.mpr (queued e mem)
    · exact stateOf_eq_some.mpr (stacked q waits)
    · rw [← (target _ _ grant pursued).1]
      exact stateOf_eq_some.mpr (active _ pursued)
  · obtain ⟨r, live, rfl⟩ := stateOf_eq_some.mp state
    obtain ⟨held, whole⟩ := handleOf_of_live live
    refine .inr ?_
    cases here : r.state with
    | dormant => exact absurd here awake
    | queued =>
      obtain ⟨e, mem, is⟩ := inQueue _ r held here
      exact ⟨e.request, _, .queued (List.mem_map.mpr ⟨e, mem, rfl⟩), is.trans whole⟩
    | suspended =>
      obtain ⟨q, mem, is⟩ := onStack _ r held here
      exact ⟨q, _, .stacked mem, is.trans whole⟩
    | active stage =>
      obtain ⟨g, grant, is⟩ := granted _ r stage held here
      obtain ⟨c, pursued⟩ := pursued_of g grant
      exact ⟨g, _, .granted grant pursued, is.trans whole⟩
  · rcases offers e mem is with ⟨x, waits, handle, origin⟩ | ⟨g, grant, handle, origin⟩
    · exact ⟨x.request, handle, origin, .inr ⟨_, .queued (List.mem_map.mpr ⟨x, waits, rfl⟩), nofun⟩⟩
    · obtain ⟨c, pursued⟩ := pursued_of g grant
      exact ⟨g, handle, origin, .inr ⟨_, .granted grant pursued, nofun⟩⟩
  · obtain ⟨free, noQueue, noStack⟩ := parked mode
    rcases stands with waits | waits | ⟨grant, -⟩
    · rw [noQueue] at waits
      cases waits
    · rw [noStack] at waits
      cases waits
    · rw [free] at grant
      cases grant

theorem Beam.beamLegal (b : Beam s) (calm : s.scheduler.passWanted = false) : BeamLegal s := by
  refine ⟨fun parked => ?_, b.placed.aimed.context, b.placed.bounds.room, b.placed.bounds.depth, calm⟩
  have empty := b.placed.empty_of_parked parked
  exact ⟨empty.grant, empty.queue, empty.stack⟩

theorem Beam.statesAgree (b : Beam s) : StatesAgree s := by
  have p := b.placed
  have awake {i : Fin 48} {r : Record} (held : s.recordAt i = some r) (up : r.state ≠ .dormant) : ∃ q, Stands s q r.state ∧ q.handle = s.handleOf i := by
    rcases p.stands _ _ (stateOf_handleOf held) up with ⟨q, none_, -⟩ | ⟨q, st, stands, is⟩
    · cases none_
    · have same := p.states q st stands
      rw [is, stateOf_handleOf held] at same
      exact ⟨q, (Option.some.inj same).symm ▸ stands, is⟩
  refine ⟨fun e mem => ?_, fun q mem => ?_, fun c pursued => ?_, p.aimed.target, fun i r held state => ?_, fun i r held state => ?_,
    fun i r stage held state => ?_, p.bounds.queueSlots, p.bounds.stackSlots⟩
  · exact stateOf_eq_some.mp (p.states _ _ (.queued (List.mem_map.mpr ⟨e, mem, rfl⟩)))
  · exact stateOf_eq_some.mp (p.states _ _ (.stacked mem))
  · exact stateOf_eq_some.mp (b.pursued_live pursued)
  · obtain ⟨q, stands, is⟩ := awake held (by rw [state]; exact nofun)
    rw [state] at stands
    cases stands with
    | queued waits =>
      obtain ⟨e, mem, rfl⟩ := List.mem_map.mp waits
      exact ⟨e, mem, is⟩
  · obtain ⟨q, stands, is⟩ := awake held (by rw [state]; exact nofun)
    rw [state] at stands
    cases stands with
    | stacked waits => exact ⟨q, waits, is⟩
  · obtain ⟨q, stands, is⟩ := awake held (by rw [state]; exact nofun)
    rw [state] at stands
    cases stands with
    | granted grant => exact ⟨q, grant, is⟩

theorem Beam.offersStand (b : Beam s) : OffersStand s := by
  intro e mem is
  obtain ⟨q, handle, origin, none_ | ⟨st, stands, other⟩⟩ := b.placed.offers e mem is
  · cases none_
  · rcases stands with waits | waits | ⟨grant, -⟩
    · obtain ⟨x, there, rfl⟩ := List.mem_map.mp waits
      exact .inl ⟨x, there, handle, origin⟩
    · exact absurd rfl other
    · exact .inr ⟨q, grant, handle, origin⟩

theorem Beam.selectionDone (b : Beam s) : SelectionDone s :=
  ⟨b.topped.used, b.topped.top, b.placed.bounds.arrivals, b.placed.bounds.below, b.placed.bounds.counter⟩

end Sys2Proof.Machine

open Sys2Proof Sys2Proof.Machine

/-- Settles O59: with some requests loose while an event is under way, each operation of the arbiter, the scheduler and the pursuit unit keeps the records, the
collections and the list in agreement, and no event ends with one loose. -/
theorem stepKeepsBeam : Obligations.StepKeepsBeam := by
  rintro s s' list ⟨legal, agree, offers, done⟩ stepped
  obtain ⟨beam, calm⟩ := step_steers s stepped (.of_legal list legal agree offers done) legal.2.2.2.2
  exact ⟨beam.beamLegal calm, beam.statesAgree, beam.offersStand, beam.selectionDone⟩

end
